-- ==== Sys2Proof/Word.lean ====
section
/-!
DEFINITION. Word.lean: the bit-vector types of the Amsetra 2612's wire fields. Only what the manual treats as bits is
a bit vector here (bytes of a frame, addresses, identities, counters that wrap); counts and times are Nat and Int.
-/

namespace Sys2Proof

/-- One byte of a frame. -/
abbrev Byte := BitVec 8

/-- A 48-bit Ethernet address; the first byte on the wire is the most significant (00_scope.md, Byte and bit order). -/
abbrev Addr := BitVec 48

/-- A 64-bit identity in a timing message: a sender identity, a time-source identity, the part's timing identity (R51,
R52). -/
abbrev Ident := BitVec 64

/-- A reading of the elapsed counter: 64 bits in 1/256 ns, wrapping modulo 2^64 (R93). -/
abbrev Elapsed := BitVec 64

end Sys2Proof
end

