-- ==== Sys2Proof/Syntax.lean ====
section
/-!
DEFINITION. Syntax.lean: the commands of the block, one constructor per row of spec/opcode_table.json, with the
operands that the world (and not the part's own state) decides.
-/

namespace Sys2Proof

/-- The two Ethernet ports (00_scope.md, Block overview): N faces the network, D the attached device. -/
inductive Port where
  | n
  | d
  deriving DecidableEq, Repr

/-- What the part's outside shows at one tick (R3, R178): the level of each capture input line CAP0 to CAP3 (true is
HIGH), and for each port whether it is receiving a frame of which the first byte of the destination address has passed
its stamping point since the tick before. -/
structure TickIn where
  cap : Vector Bool 4
  rxN : Bool
  rxD : Bool
  deriving DecidableEq, Repr

/-- The commands. Each is one whole and indivisible step of 95_what_each_step_holds.md; the constructors stand in the
order of spec/opcode_table.json. A management command carries no operand: it acts on the oldest request of the
agent's queue (R194). -/
inductive Instr where
  /-- COLD_RESET (R117): the reset input or power-on. -/
  | coldReset
  /-- WARM_RESET (R198): the warm reset that a RESTART has made due takes effect. -/
  | warmReset
  /-- LINK_UP (R1): the physical layer of port `p` reports the link established. -/
  | linkUp (p : Port)
  /-- LINK_DOWN (R1): the physical layer of port `p` reports the link lost or a remote fault. -/
  | linkDown (p : Port)
  /-- FRAME_RECEIVED (R2): the end of a received frame at port `p`; `bytes` from the first byte of the destination
  address to the last byte of the FCS; `cut` when an error on the link cut the frame short. -/
  | frameReceived (p : Port) (bytes : List Byte) (cut : Bool)
  /-- CLASSIFY_FRAME (R18): the classifier takes the next frame record that port `p` handed it; which port's record
  comes next is the world's choice (R4). -/
  | classifyFrame (p : Port)
  /-- TRANSMIT_START (R10): port `p` begins to send a frame. -/
  | transmitStart (p : Port)
  /-- TRANSMIT_END (R9): port `p` has sent the last byte of a frame's FCS. -/
  | transmitEnd (p : Port)
  /-- RESIDENCE_RECORD_AGE_OUT (R45): the `i`-th residence record, oldest first, ages out. -/
  | residenceRecordAgeOut (i : Fin 8)
  /-- TIMING_COPY_INTAKE (R53): the timing engine takes its next copy. -/
  | timingCopyIntake
  /-- SOURCE_TIMEOUT (R61): the source record in slot `i` times out. -/
  | sourceTimeout (i : Fin 8)
  /-- PROBE_SCHEDULE_EXPIRY (R78). -/
  | probeScheduleExpiry
  /-- PENDING_PROBE_AGE_OUT (R81): the `i`-th pending-probe record, oldest first, ages out. -/
  | pendingProbeAgeOut (i : Fin 4)
  /-- STEP_TICK (R95): the tick at which a requested step takes effect. -/
  | stepTick (inp : TickIn)
  /-- HOLDOVER_EXPIRED (R111). -/
  | holdoverExpired
  /-- CLOCK_LOSS (R113): loss of TCLK detected; `n` backup ticks were counted since the last TCLK tick. The catch-up
  advance is one tick, at which the outside shows `inp`. -/
  | clockLoss (n : Nat) (inp : TickIn)
  /-- CLOCK_RESTORED (R115). -/
  | clockRestored
  /-- CADENCE_EDGE (R126): RUNNING cadence `n` produces its next edge. -/
  | cadenceEdge (n : Fin 8)
  /-- PULSE_END (R127): the output of cadence `n` goes inactive at its end time. -/
  | pulseEnd (n : Fin 8)
  /-- ONESHOT_FIRE (R132): ARMED cadence `n` reaches its armed edge. -/
  | oneshotFire (n : Fin 8)
  /-- AT_TIME_REACHED (R151). -/
  | atTimeReached
  /-- LABEL_WORD_COMPLETE (R168): the word of serializer `m` is complete. -/
  | labelWordComplete (m : Fin 2)
  /-- CAPTURE_INPUT_CHANGE (R178): line `n` makes or discards a candidate. -/
  | captureInputChange (n : Fin 4)
  /-- CAPTURE_ACCEPT (R178): the candidate of line `n` is accepted. -/
  | captureAccept (n : Fin 4)
  /-- IDENTIFY (R197). -/
  | identify
  /-- READ_STATUS (R197). -/
  | readStatus
  /-- READ_TABLE (R202). -/
  | readTable
  /-- WRITE_TABLE (R200). -/
  | writeTable
  /-- SWITCH_BANK (R148). -/
  | switchBank
  /-- STEP_TIME (R97). -/
  | stepTime
  /-- SET_TIME (R98). -/
  | setTime
  /-- SET_TRIM (R99). -/
  | setTrim
  /-- ARM_ONESHOT (R130). -/
  | armOneshot
  /-- DISARM_ONESHOT (R131). -/
  | disarmOneshot
  /-- READ_CAPTURE (R185). -/
  | readCapture
  /-- CLEAR_EVENTS (R206). -/
  | clearEvents
  /-- RESTART (R198). -/
  | restart
  /-- HOLDOFF_END (R204): the holdoff of group `g` passes. -/
  | holdoffEnd (g : Fin 4)
  /-- TICK (R92): one tick of the clock that advances the counters. -/
  | tick (inp : TickIn)
  /-- RESTORE_QUALIFICATION_START (R115). -/
  | restoreQualificationStart
  /-- RESTORE_QUALIFICATION_RESTART (R115). -/
  | restoreQualificationRestart
  /-- BAD_COMMAND_REQUEST (R195): the oldest request's command code names no command. -/
  | badCommandRequest
  deriving DecidableEq, Repr

end Sys2Proof
end

