-- ==== Sys2Proof/Decode.lean ====
section
/-!
DEFINITION. Decode.lean: the command that a word spells by the bits of spec/opcode_table.json. No row of that table
gives bits (98_reader.md: n_rows_with_fixed is 0 and n_rows_with_fields is 0), so no word spells a command. The
management commands of R209 are bytes in a frame and are read in Machine/Operands.lean and Machine/Agent.lean.
-/

namespace Sys2Proof

/-- The command that a word of `nbits` bits spells by the table's bits: none, since no row of the table has bits. -/
def decodeTableWord (_nbits _w : Nat) : Option Instr := none

end Sys2Proof
end

