-- ==== Sys2Proof/Config.lean ====
section
/-!
DEFINITION. Config.lean: the values the manual leaves open, as constants without a body: nothing can be proved of
what they are.
-/

namespace Sys2Proof

/-- FREE VALUE (assumption 9). The 6-byte seconds field of a time that a response reports, when the time's seconds
do not fit in 48 bits. It can happen only for the next edge time of a cadence whose next edge lies beyond the range
of the time counter (R137 lets a cadence hold such an edge; R209's time field has 6 bytes of seconds). The manual
states no encoding there. The argument is the number of seconds. -/
opaque Config.secondsBeyondField : Nat → BitVec 48

end Sys2Proof
end

