-- ==== Sys2Proof/Machine/Bytes.lean ====
section
/-!
DEFINITION. Machine/Bytes.lean: byte order, fields of byte lists, signs, and the frame check sequence. Fields of more
than one byte stand most significant byte first (00_scope.md, Byte and bit order; R209).
-/

namespace Sys2Proof.Machine

/-- The number that a list of bytes spells, most significant byte first. -/
def beNat (bs : List Byte) : Nat := bs.foldl (fun acc b => acc * 256 + b.toNat) 0

/-- The low `n` bytes of a number, most significant byte first. -/
def beBytes : Nat → Nat → List Byte
  | 0, _ => []
  | n + 1, v => BitVec.ofNat 8 (v / 256 ^ n) :: beBytes n v

/-- The `len` bytes of a list from offset `off`. -/
def slice (bs : List Byte) (off len : Nat) : List Byte := (bs.drop off).take len

/-- The number in the `len` bytes from offset `off`. -/
def fieldAt (bs : List Byte) (off len : Nat) : Nat := beNat (slice bs off len)

/-- The byte at an offset (0 past the end; every reader has checked the length). -/
def byteAt (bs : List Byte) (off : Nat) : Byte := bs.getD off 0

/-- The two's-complement value of a `w`-bit number. -/
def signedOf (w n : Nat) : Int := if n < 2 ^ (w - 1) then (n : Int) else (n : Int) - 2 ^ w

/-- The `w`-bit two's-complement number of an integer. -/
def unsignedOf (w : Nat) (z : Int) : Nat := (z % (2 ^ w : Nat)).toNat

/-- A byte list with the bytes from offset `off` replaced by `new`. -/
def overlay (bs : List Byte) (off : Nat) (new : List Byte) : List Byte :=
  bs.take off ++ new ++ bs.drop (off + new.length)

/-- `count` pieces of `size` bytes each. -/
def chunks (size : Nat) : Nat → List Byte → List (List Byte)
  | 0, _ => []
  | n + 1, bs => bs.take size :: chunks size n (bs.drop size)

/-- One bit of a flags byte. -/
def flagByte (b : Bool) : Byte := if b then 1 else 0

/-- The clamp of `z` to ±`x` (00_scope.md, Rounding). -/
def clamp (x z : Int) : Int := max (-x) (min x z)

/-- One step of the check over one bit, least significant bit first. -/
def crcBit (c : BitVec 32) : BitVec 32 :=
  if c.getLsbD 0 then (c >>> 1) ^^^ 0xEDB88320#32 else c >>> 1

/-- One step of the check over one byte. -/
def crcByte (c : BitVec 32) (b : Byte) : BitVec 32 :=
  crcBit (crcBit (crcBit (crcBit (crcBit (crcBit (crcBit (crcBit (c ^^^ b.setWidth 32))))))))

/-- The 4 bytes of the frame check sequence over a frame's content. PRESUMED (assumption 4): the manual says only that
the FCS is the 32-bit check at the end of every Ethernet frame (00_scope.md, Terms); this is the CRC-32 of Ethernet,
in the byte order Ethernet sends it. -/
def fcsOf (content : List Byte) : List Byte :=
  let c := ~~~ (content.foldl crcByte 0xFFFFFFFF#32)
  [c.extractLsb' 0 8, c.extractLsb' 8 8, c.extractLsb' 16 8, c.extractLsb' 24 8]

/-- A received frame less its FCS. -/
def contentOf (bytes : List Byte) : List Byte := bytes.take (bytes.length - 4)

/-- The FCS of a received frame is correct (R2). -/
def fcsCorrect (bytes : List Byte) : Bool := bytes.drop (bytes.length - 4) == fcsOf (contentOf bytes)

/-- A frame the part builds, padded with zero bytes to 60 bytes before its FCS (R13). -/
def padded (content : List Byte) : List Byte := content ++ List.replicate (60 - content.length) 0

/-- The one's complement sum of two 16-bit words: the carry out is added in again (R47, R79). -/
def onesAdd (a b : Nat) : Nat := (a + b) % 65536 + (a + b) / 65536

/-- The one's complement of a 16-bit word. -/
def onesNeg (a : Nat) : Nat := 65535 - a

/-- The one's complement sum of the 16-bit words of a byte list, a last odd byte being the upper half of a word. -/
def onesSum (bs : List Byte) : Nat :=
  (chunks 2 ((bs.length + 1) / 2) bs).foldl
    (fun acc w => onesAdd acc ((byteAt w 0).toNat * 256 + (byteAt w 1).toNat)) 0

/-- The list with `x` joined as the newest, holding at most `cap` entries: the oldest leave to make room. -/
def pushNewest {α : Type} (cap : Nat) (x : α) (xs : List α) : List α := (xs ++ [x]).drop (xs.length + 1 - cap)

end Sys2Proof.Machine
end

