-- ==== Sys2Proof/Machine/State.lean ====
section
/-!
DEFINITION. Machine/State.lean: everything the manual gives the part to hold, as plain data, and the state right
after a cold reset. INVENTORY.md lists each field with its rule and its reset value. Lists stand oldest first.
-/

namespace Sys2Proof.Machine

/-- The reasons a step could stop with a fault. The manual gives the part no behaviour that stops it: it has no
processor and no trap, and every step of the table states its effect or is without effect when its condition does
not hold (assumption 1). So there is no constructor. Safe: nothing stops. -/
inductive Fault where
  deriving DecidableEq, Repr

/-- The reasons a step is refused. -/
inductive Refusal where
  /-- Raised by an arm of `exec` for a command without a meaning yet. No arm raises it. Safe: the run stops. -/
  | notModelled (mnemonic : String)
  deriving DecidableEq, Repr

/-! ### Frame path (Chapters 1 to 3) -/

/-- Link state of a port (R1). -/
inductive Link where
  | down
  | up
  deriving DecidableEq, Repr

/-- A port stamp (R3, R10): the time reading, an exact signed count in 1/256 ns, and the elapsed reading. -/
structure Stamp where
  time : Int
  elapsed : Elapsed
  deriving DecidableEq, Repr

/-- How a timing header is carried (R22); `none` only in a classification entry. -/
inductive Carrier where
  | none
  | l2
  | udp4
  deriving DecidableEq, Repr

/-- The correction mark of a forwarded frame (R27): the carrier, the position of the timing header in the frame and,
for carrier UDP4, the position of the UDP header. -/
structure CorrMark where
  carrier : Carrier
  hdrPos : Nat
  udpPos : Option Nat
  deriving DecidableEq, Repr

/-- The origin of a queued frame with what its entry carries for that origin (1.4). The response to RESTART is told
from the others because its departure makes the warm reset due (R198). -/
inductive Origin where
  | forwarded (ingress : Stamp) (mark : Option CorrMark)
  | probe (seq : BitVec 16)
  | response (ofRestart : Bool)
  | notification
  deriving DecidableEq, Repr

/-- An entry of an egress queue (1.4): the bytes to be sent without the FCS, and the origin. -/
structure EgressEntry where
  bytes : List Byte
  origin : Origin
  deriving DecidableEq, Repr

/-- The frame a port has in transmission (R7): its bytes as sent, FCS included (R11), or none while the corrector's
answer waits for the egress stamp's tick (R10), and its origin. -/
structure TxFrame where
  wire : Option (List Byte)
  origin : Origin
  deriving DecidableEq, Repr

/-- A departure whose egress stamp is read at the first tick at or after it (R10): the port, the entry that departed,
the egress latency in force when the stamp was taken (R5, R37), and whether its transmission is still under way. -/
structure Departure where
  port : Port
  entry : EgressEntry
  latency : Nat
  sending : Bool
  deriving DecidableEq, Repr

/-- An accepted frame that began and ended since the latest tick and takes its ingress stamp at the next (R2, R3): its
bytes, FCS included, and the ingress latency that its stamp takes (R5). -/
structure Arrival where
  bytes : List Byte
  latency : Nat
  deriving DecidableEq, Repr

/-- A frame record handed to the classifier (R4): bytes as received, FCS included, and the ingress stamp. -/
structure FrameRec where
  bytes : List Byte
  stamp : Stamp
  deriving DecidableEq, Repr

/-- Traffic class (R31). -/
inductive TClass where
  | ordinary
  | timing
  deriving DecidableEq, Repr

/-- One port: link state (R1), port record (R5), the two egress queues (R7), the frame in transmission (R7), the ingress
stamp of the frame being received (R3), the accepted frames that began and ended since the latest tick and take their
stamps at the next (R2, R3), and the frame records handed to the classifier and not yet classified (R4). -/
structure PortState where
  link : Link
  ingressLat : Nat
  egressLat : Nat
  asym : Int
  timingQ : List EgressEntry
  ordinaryQ : List EgressEntry
  tx : Option TxFrame
  receiving : Option Stamp
  unstamped : List Arrival
  records : List FrameRec
  deriving DecidableEq, Repr

/-- The VLAN condition of a classification entry (2.5). -/
inductive VlanMatch where
  | untagged
  | id (v : BitVec 12)
  deriving DecidableEq, Repr

/-- The five actions (2.6). -/
inductive Action where
  | forward
  | forwardCorrect
  | copyCorrect
  | takeTiming
  | drop
  deriving DecidableEq, Repr

/-- A classification entry (2.5). `kinds` has bit k − 1 for kind k. -/
structure ClassEntry where
  valid : Bool
  portN : Bool
  portD : Bool
  dest : Option (Addr × Addr)
  vlan : Option VlanMatch
  etherType : Option (BitVec 16)
  udpPort : Option (BitVec 16)
  carrier : Carrier
  kinds : Option (BitVec 5)
  domain : Option (BitVec 8)
  action : Action
  cls : TClass
  deriving DecidableEq, Repr

/-- A residence record (R41). -/
structure ResRec where
  sender : Ident
  portNo : BitVec 16
  seq : BitVec 16
  domain : BitVec 8
  dir : Port
  residence : BitVec 64
  created : Elapsed
  deriving DecidableEq, Repr

/-! ### Timing engine (Chapters 4 and 5) -/

/-- A copy given to the timing engine (R28): the frame's bytes as received, the ingress stamp, the carrier, the
position of the timing header and, if tagged, the VLAN id. -/
structure Copy where
  bytes : List Byte
  stamp : Stamp
  carrier : Carrier
  hdrPos : Nat
  vlan : Option (BitVec 12)
  deriving DecidableEq, Repr

/-- State of a source record (R56). -/
inductive SrcState where
  | qualifying
  | eligible
  deriving DecidableEq, Repr

/-- A source record (R56). -/
structure SourceRec where
  sender : Ident
  portNo : BitVec 16
  tsIdent : Ident
  pref1 : BitVec 8
  cls : BitVec 8
  accuracy : BitVec 8
  variance : BitVec 16
  pref2 : BitVec 8
  hops : BitVec 16
  civil : Int
  civilValid : Bool
  interval : Int
  lastSeq : BitVec 16
  count : Nat
  lastHeard : Elapsed
  st : SrcState
  selected : Bool
  deriving DecidableEq, Repr

/-- The pending-Mark slot's content (R74). -/
structure PendingMark where
  sender : Ident
  portNo : BitVec 16
  seq : BitVec 16
  t2 : Int
  corr : Int
  deriving DecidableEq, Repr

/-- The latest Mark difference with the sequence number of its Mark (R75). -/
structure MarkDiff where
  m : Int
  seq : BitVec 16
  deriving DecidableEq, Repr

/-- The part of the probe template that depends on the carrier (R76). -/
inductive TemplateNet where
  | l2 (etherType : BitVec 16)
  | udp4 (ip : BitVec 32) (tos : Byte) (udpPort : BitVec 16)
  deriving DecidableEq, Repr

/-- The probe template (R76): station address, tag control information or untagged, and the carrier's fields. -/
structure Template where
  station : Addr
  tci : Option (BitVec 16)
  net : TemplateNet
  deriving DecidableEq, Repr

/-- The probe schedule (R78) with its next expiry and the reading of its latest expiry. -/
inductive Schedule where
  | stopped
  | waiting (next latest : Elapsed)
  | timed (next latest : Elapsed)
  deriving DecidableEq, Repr

/-- A pending-probe record (R80). -/
structure PendingProbe where
  seq : BitVec 16
  t3 : Int
  sent : Elapsed
  deriving DecidableEq, Repr

/-- An offset sample (R84): exact in 1/256 ns, and saturated whole ns. -/
structure Offset where
  exact : Int
  ns : Int
  deriving DecidableEq, Repr

/-- The exchange unit (Chapter 5, table of state). -/
structure Exchange where
  slot : Option PendingMark
  mark : Option MarkDiff
  template : Option Template
  sched : Schedule
  probeSeq : BitVec 16
  probes : List PendingProbe
  window : List Int
  boundary : Option Elapsed
  lastOffset : Option Offset
  deriving DecidableEq, Repr

/-! ### Time counter, servo and clock monitor (Chapter 6) -/

/-- The time counter (R92): seconds, nanoseconds, and the fraction in 2^−32 ns. -/
structure TimeVal where
  sec : Nat
  ns : Nat
  frac : BitVec 32
  deriving DecidableEq, Repr

/-- A step asked for and not yet made (R95): by an amount in 1/256 ns (the servo's −θ; STEP_TIME's whole ns times
256, which keeps the fraction), or to a given time with fraction 0 (SET_TIME). -/
inductive StepReq where
  | by (amount : Int)
  | to (sec ns : Nat)
  deriving DecidableEq, Repr

/-- The SERVO record (R54, R77, R101). -/
structure ServoCfg where
  domain : BitVec 8
  multiple : Nat
  probeCode : Int
  probeIp : BitVec 32
  maxAdjust : Nat
  kp : Nat
  ki : Nat
  stepThreshold : Nat
  outlierGate : Nat
  lockWindow : Nat
  holdoverLimit : Nat
  deriving DecidableEq, Repr

/-- Servo states (6.4). -/
inductive ServoState where
  | free
  | acquire
  | track
  | holdover
  deriving DecidableEq, Repr

/-- The servo (Chapter 6, table of state). The increment is a function of `a` (R94) and is not stored again. -/
structure Servo where
  st : ServoState
  a : Int
  integ : Int
  locked : Bool
  lockCount : Nat
  outlierCount : Nat
  lockHeld : Bool
  history : List Int
  holdStart : Option Elapsed
  traced : Bool
  deriving DecidableEq, Repr

/-- The clock monitor (R113, R115): in BACKUP, the restore qualification in progress with the backup ticks counted
since it started or was restarted, or none. -/
inductive ClockState where
  | normal
  | backup (qual : Option Nat)
  deriving DecidableEq, Repr

/-! ### Cadences, banks, lines and labels (Chapters 7 to 9) -/

/-- Mode of a cadence record (R119). -/
inductive CadMode where
  | off
  | continuous
  | oneShot
  deriving DecidableEq, Repr

/-- Shape of a cadence record (R119). -/
inductive Shape where
  | pulse
  | square
  deriving DecidableEq, Repr

/-- Run policy of a cadence record (R119). -/
inductive Policy where
  | always
  | whenTraced
  deriving DecidableEq, Repr

/-- A cadence record (R119). -/
structure CadRec where
  mode : CadMode
  num : Nat
  den : Nat
  phase : Nat
  shape : Shape
  width : Nat
  policy : Policy
  deriving DecidableEq, Repr

/-- State of a cadence (R124) with, for RUNNING and ARMED, the edge index and the next edge time in ns. -/
inductive CadState where
  | off
  | waiting
  | running (k t : Nat)
  | idle
  | armed (k t : Nat)
  | done
  deriving DecidableEq, Repr

/-- The runtime record of a cadence (R124). The output is active exactly while `pulse` holds its end time. `last` is
the index and time of the latest edge. `endedNow` is the model's own: the output went inactive at its end time at the
latest tick (R128; assumption 7). -/
structure CadRun where
  st : CadState
  pulse : Option Nat
  last : Option (Nat × Nat)
  endedNow : Bool
  deriving DecidableEq, Repr

/-- The source of a line route (R158). -/
inductive Source where
  | low
  | high
  | cadence (n : Fin 8)
  | labelData (m : Fin 2)
  | labelClock (m : Fin 2)
  | locked
  | traced
  | backup
  deriving DecidableEq, Repr

/-- Polarity of a line route (R158). -/
inductive Polarity where
  | normal
  | inverted
  deriving DecidableEq, Repr

/-- A route record (R158). -/
structure Route where
  source : Source
  polarity : Polarity
  deriving DecidableEq, Repr

/-- Clock edge of a label configuration (R164). -/
inductive ClockEdge where
  | rising
  | falling
  deriving DecidableEq, Repr

/-- A label configuration (R164). -/
structure LabelCfg where
  enable : Bool
  cadence : Fin 8
  delay : Nat
  period : Nat
  edge : ClockEdge
  deriving DecidableEq, Repr

/-- A word in progress (Chapter 9, table of state): its 96 bits, its edge index, the STEP_SEEN value it carries, and
the ticks counted since the tick of its edge. -/
structure LabelWord where
  bits : BitVec 96
  index : Nat
  stepSeen : Bool
  count : Nat
  deriving DecidableEq, Repr

/-- A label serializer: SHIFTING exactly while it holds a word; its step-seen flag; its two outputs. -/
structure Serializer where
  word : Option LabelWord
  stepSeen : Bool
  data : Bool
  clk : Bool
  deriving DecidableEq, Repr

/-- A profile bank (R145). -/
structure Bank where
  cad : Vector CadRec 8
  lines : Vector Route 12
  labels : Vector LabelCfg 2
  deriving DecidableEq, Repr

/-- The trigger of a switch (R147). -/
inductive Trigger where
  | atEdge (c : Fin 8)
  | atTime (sec ns : Nat)
  deriving DecidableEq, Repr

/-- A pending switch (R147). `dueTick` is the model's own: the due flag is set and a tick has come since (R151). -/
structure SwitchReq where
  target : Fin 4
  trigger : Trigger
  due : Bool
  dueTick : Bool
  deriving DecidableEq, Repr

/-- What the outputs of a tick are taken from (R158, R159): the output levels of the cadences, the data and clock
outputs of the serializers, the routes in force, and the flags. The model's own: it is held from a tick until every
event that the tick reaches has been taken (assumption 6). -/
structure TickView where
  active : Vector Bool 8
  ser : Vector (Bool × Bool) 2
  lines : Vector Route 12
  locked : Bool
  traced : Bool
  backup : Bool
  deriving DecidableEq, Repr

/-! ### Capture (Chapter 10) -/

/-- Edge select (R177). -/
inductive EdgeSel where
  | none
  | rising
  | falling
  | both
  deriving DecidableEq, Repr

/-- Ring mode (R177). -/
inductive RingMode where
  | continuous
  | oneShot
  deriving DecidableEq, Repr

/-- A capture record (R177). -/
structure CapRec where
  sel : EdgeSel
  qual : Nat
  mode : RingMode
  bound : Option (Fin 8)
  window : BitVec 4
  deriving DecidableEq, Repr

/-- A capture stamp (R179): seconds, nanoseconds, the direction (`falling` set for FALLING) and the before-step flag. -/
structure CapStamp where
  sec : Nat
  ns : Nat
  falling : Bool
  beforeStep : Bool
  deriving DecidableEq, Repr

/-- A candidate (R178): its level, its stamp, its run count. -/
structure Cand where
  level : Bool
  stamp : CapStamp
  run : Nat
  deriving DecidableEq, Repr

/-- The qualifier of a line (R178, R180): idle; re-seeded and waiting for the next tick's sample; or holding an
accepted level and perhaps a candidate. -/
inductive Qualifier where
  | idle
  | seeding
  | live (accepted : Bool) (cand : Option Cand)
  deriving DecidableEq, Repr

/-- Line state (R182). -/
inductive LineState where
  | run
  | full
  deriving DecidableEq, Repr

/-- A capture line. `sample` is the level its input showed at the latest tick (R178). -/
structure CapLine where
  qual : Qualifier
  sample : Bool
  ring : List CapStamp
  st : LineState
  phase : Option Int
  inWindow : Bool
  deriving DecidableEq, Repr

/-! ### Management and notification (Chapter 11) -/

/-- A request in the queue (R193). -/
structure Request where
  bytes : List Byte
  port : Port
  src : Addr
  tci : Option (BitVec 16)
  deriving DecidableEq, Repr

/-- Progress of a RESTART (R198): none; its response has not left the part; the warm reset is due. -/
inductive RestartState where
  | idle
  | waiting
  | due
  deriving DecidableEq, Repr

/-- A NOTIFY record (R207): destination or none, egress port, holdoff in ms, enable mask. -/
structure NotifyCfg where
  dest : Option Addr
  egress : Port
  holdoff : Nat
  enable : BitVec 8
  deriving DecidableEq, Repr

/-- State of an event group (R204); in HOLDOFF its start and the length in ms it was started with (R207). -/
inductive GroupState where
  | idle
  | holdoff (start : Elapsed) (ms : Nat)
  deriving DecidableEq, Repr

/-- An event group: the pending flags of its 8 events, its state, its reported-during-holdoff flag (R203, R204). -/
structure Group where
  pending : BitVec 8
  st : GroupState
  reported : Bool
  deriving DecidableEq, Repr

/-- The state of the part, with the queue of commands that wait. `departing` holds the departures of both ports since
the latest tick that take an egress stamp, in their order (R10). `pins` are the levels that the latest tick gave the
pins (R159); while an event that the latest tick reaches is still to be taken, `view` holds what that tick will show,
and the pins and the serializers' outputs stand as before it (assumption 6). `prevTime` and `prevTime2` are the time
counter's values, in 2^−32 ns, that R125 takes for the tick before the latest tick and for the one before that
(assumption 7). -/
structure State where
  pending : List Instr
  station : Addr
  portN : PortState
  portD : PortState
  departing : List Departure
  classify : Vector ClassEntry 32
  residence : List ResRec
  copies : List Copy
  sources : Vector (Option SourceRec) 8
  exch : Exchange
  time : TimeVal
  elapsed : Elapsed
  elapsedRem : BitVec 24
  prevTime : Nat
  prevTime2 : Nat
  steps : List StepReq
  servoCfg : ServoCfg
  servo : Servo
  clock : ClockState
  banks : Vector Bank 4
  active : Fin 4
  switch : Option SwitchReq
  cad : Vector CadRun 8
  ser : Vector Serializer 2
  pins : Vector Bool 12
  view : Option TickView
  capRec : Vector CapRec 4
  cap : Vector CapLine 4
  requests : List Request
  managers : Vector Addr 4
  civil : Int
  restart : RestartState
  notifyCfg : Vector NotifyCfg 4
  groups : Vector Group 4
  notifySeq : BitVec 16
  deriving DecidableEq, Repr

/-! ### The state right after a cold reset -/

/-- A port after a cold reset (R1, R6, R7, R17). -/
def PortState.reset : PortState :=
  { link := .down, ingressLat := 0, egressLat := 0, asym := 0, timingQ := [], ordinaryQ := [], tx := none,
    receiving := none, unstamped := [], records := [] }

/-- The empty classification entry (R32). -/
def ClassEntry.empty : ClassEntry :=
  { valid := false, portN := true, portD := true, dest := none, vlan := none, etherType := none, udpPort := none,
    carrier := .none, kinds := none, domain := none, action := .forward, cls := .ordinary }

/-- The exchange unit after a cold reset (R90). -/
def Exchange.reset : Exchange :=
  { slot := none, mark := none, template := none, sched := .stopped, probeSeq := 0, probes := [], window := [],
    boundary := none, lastOffset := none }

/-- The SERVO record after a cold reset (R54, R77, R101). -/
def ServoCfg.reset : ServoCfg :=
  { domain := 0, multiple := 3, probeCode := -3, probeIp := 0, maxAdjust := 50000, kp := 179, ki := 1966,
    stepThreshold := 1000000, outlierGate := 10000, lockWindow := 100, holdoverLimit := 600 }

/-- The servo after a cold reset (R117). -/
def Servo.reset : Servo :=
  { st := .free, a := 0, integ := 0, locked := false, lockCount := 0, outlierCount := 0, lockHeld := false,
    history := [], holdStart := none, traced := false }

/-- The default cadence record (R122). -/
def CadRec.reset : CadRec :=
  { mode := .off, num := 1, den := 1, phase := 0, shape := .pulse, width := 8, policy := .always }

/-- The default route record (R163). -/
def Route.reset : Route := { source := .low, polarity := .normal }

/-- The default label configuration (R164). -/
def LabelCfg.reset : LabelCfg := { enable := false, cadence := 0, delay := 0, period := 2, edge := .rising }

/-- A profile bank after a cold reset (R122, R163, R164). -/
def Bank.reset : Bank :=
  { cad := Vector.replicate 8 CadRec.reset, lines := Vector.replicate 12 Route.reset,
    labels := Vector.replicate 2 LabelCfg.reset }

/-- The runtime of a cadence after a cold reset (R144). -/
def CadRun.reset : CadRun := { st := .off, pulse := none, last := none, endedNow := false }

/-- A serializer after a cold reset (R176). -/
def Serializer.reset : Serializer := { word := none, stepSeen := false, data := false, clk := false }

/-- The default capture record (R177). -/
def CapRec.reset : CapRec := { sel := .none, qual := 0, mode := .continuous, bound := none, window := 0 }

/-- A capture line after a cold reset (R192). -/
def CapLine.reset : CapLine :=
  { qual := .idle, sample := false, ring := [], st := .run, phase := none, inWindow := true }

/-- The default NOTIFY record (R208). -/
def NotifyCfg.reset : NotifyCfg := { dest := none, egress := .n, holdoff := 0, enable := 0 }

/-- An event group after a cold reset (R208). -/
def Group.reset : Group := { pending := 0, st := .idle, reported := false }

/-- The part right after its first cold reset. The station address stands in one-time memory and no reset changes it
(Signal summary); its value is the model's, 0 (assumption 3). -/
def State.reset : State :=
  { pending := []
    station := 0
    portN := PortState.reset
    portD := PortState.reset
    departing := []
    classify := Vector.replicate 32 ClassEntry.empty
    residence := []
    copies := []
    sources := Vector.replicate 8 none
    exch := Exchange.reset
    time := { sec := 0, ns := 0, frac := 0 }
    elapsed := 0
    elapsedRem := 0
    prevTime := 0
    prevTime2 := 0
    steps := []
    servoCfg := ServoCfg.reset
    servo := Servo.reset
    clock := .normal
    banks := Vector.replicate 4 Bank.reset
    active := 0
    switch := none
    cad := Vector.replicate 8 CadRun.reset
    ser := Vector.replicate 2 Serializer.reset
    pins := Vector.replicate 12 false
    view := none
    capRec := Vector.replicate 4 CapRec.reset
    cap := Vector.replicate 4 CapLine.reset
    requests := []
    managers := Vector.replicate 4 0
    civil := 0
    restart := .idle
    notifyCfg := Vector.replicate 4 NotifyCfg.reset
    groups := Vector.replicate 4 Group.reset
    notifySeq := 0 }

end Sys2Proof.Machine
end

