-- ==== Sys2Proof/Machine/Ops.lean ====
section
/-!
DEFINITION. Machine/Ops.lean: the named operations over the state that several families share: the ports, the
counters and their readings, ages, the records in force, and the frames the part builds.
-/

namespace Sys2Proof.Machine

/-- A step of the block with this next state. Every command of the table answers so (assumption 1). -/
abbrev Answer := Host.Outcome State Fault Refusal

/-! ### Ports -/

/-- The state of one port. -/
def State.port (s : State) : Port → PortState
  | .n => s.portN
  | .d => s.portD

/-- The state with one port replaced. -/
def State.setPort (s : State) : Port → PortState → State
  | .n, x => { s with portN := x }
  | .d, x => { s with portD := x }

/-- The port a forwarded frame leaves by: the one it did not arrive on (R4). -/
def otherPort : Port → Port
  | .n => .d
  | .d => .n

/-- The queue of one class. -/
def PortState.queue (x : PortState) : TClass → List EgressEntry
  | .timing => x.timingQ
  | .ordinary => x.ordinaryQ

/-- The port with the queue of one class replaced. -/
def PortState.setQueue (x : PortState) : TClass → List EgressEntry → PortState
  | .timing, q => { x with timingQ := q }
  | .ordinary, q => { x with ordinaryQ := q }

/-- Capacity of a queue in frames (R7): 8 in the timing class, 32 in the ordinary class. -/
def queueCap : TClass → Nat
  | .timing => 8
  | .ordinary => 32

/-! ### The time counter (R92) and the elapsed counter (R93) -/

/-- Total time in whole ns since the epoch (00_scope.md, Time and the epoch). -/
def TimeVal.totalNs (t : TimeVal) : Nat := t.sec * 10 ^ 9 + t.ns

/-- Total time in 2^−32 ns: the counter's value including its fraction (R123). -/
def TimeVal.total (t : TimeVal) : Nat := t.totalNs * 2 ^ 32 + t.frac.toNat

/-- The ns at which the range of the time counter ends: 2^48 s (R92). -/
def limitNs : Nat := 2 ^ 48 * 10 ^ 9

/-- The same in 2^−32 ns. -/
def limitTotal : Nat := limitNs * 2 ^ 32

/-- The counter value of a total in 2^−32 ns, normalised. -/
def TimeVal.ofTotal (v : Nat) : TimeVal :=
  { sec := v / 2 ^ 32 / 10 ^ 9, ns := v / 2 ^ 32 % 10 ^ 9, frac := BitVec.ofNat 32 v }

/-- The value at which the counter saturates: 2^48 − 1 s + 999,999,999 ns with every fraction bit set (R92). -/
def TimeVal.top : TimeVal := { sec := 2 ^ 48 - 1, ns := 999999999, frac := BitVec.allOnes 32 }

/-- The counter advanced by an amount in 2^−32 ns, held at its top (R92). -/
def TimeVal.advance (t : TimeVal) (amount : Nat) : TimeVal :=
  if t.total + amount < limitTotal then TimeVal.ofTotal (t.total + amount) else TimeVal.top

/-- The time reading of a stamp in 1/256 ns: total ns times 256 plus the top 8 bits of the fraction (R3). -/
def TimeVal.reading (t : TimeVal) : Int := ((t.totalNs * 256 + t.frac.toNat / 2 ^ 24 : Nat) : Int)

/-- f of R94: |a| × 34,359,738,368 / 10^9, rounded half up on the magnitude. -/
def trimFraction (a : Int) : Nat := (2 * (a.natAbs * 34359738368) + 10 ^ 9) / (2 * 10 ^ 9)

/-- The increment for adjustment `a` in 2^−32 ns (R94). -/
def incrementOf (a : Int) : Nat :=
  if 0 ≤ a then 8 * 2 ^ 32 + trimFraction a else 8 * 2 ^ 32 - trimFraction a

/-- The elapsed counter with its remainder, as one count of 2^−32 ns modulo 2^88. -/
def elapsedTotal (e : Elapsed) (r : BitVec 24) : Nat := e.toNat * 2 ^ 24 + r.toNat

/-- The state with both counters advanced by an amount in 2^−32 ns (R92, R93). -/
def advanceCounters (amount : Nat) (s : State) : State :=
  { s with
    time := s.time.advance amount
    elapsed := BitVec.ofNat 64 ((elapsedTotal s.elapsed s.elapsedRem + amount) / 2 ^ 24)
    elapsedRem := BitVec.ofNat 24 (elapsedTotal s.elapsed s.elapsedRem + amount) }

/-- The increment in force (R94). -/
def State.increment (s : State) : Nat := incrementOf s.servo.a

/-- The value a step gives the counter, or none when it lies outside the range of R95. The amount is added in
1/256 ns and the low 24 bits of the fraction are kept; SET_TIME sets the fraction to 0. -/
def StepReq.result (t : TimeVal) : StepReq → Option TimeVal
  | .by amount =>
    let v := t.reading + amount
    if 0 ≤ v ∧ v < (limitNs * 256 : Nat) then
      some (TimeVal.ofTotal (v.toNat * 2 ^ 24 + t.frac.toNat % 2 ^ 24))
    else none
  | .to sec ns => if sec < 2 ^ 48 ∧ ns < 10 ^ 9 then some { sec := sec, ns := ns, frac := 0 } else none

/-- The counter at the step tick: the value its advance reaches, moved by the steps asked for, in their order. A step
whose result is out of range is not made (R95). -/
def stepPreview (s : State) : TimeVal :=
  s.steps.foldl (fun t r => (r.result t).getD t) (s.time.advance s.increment)

/-! ### Elapsed time -/

/-- Units of the elapsed counter in 1 s. -/
def unitsPerSecond : Nat := 256000000000

/-- Units of the elapsed counter in 1 ms. -/
def unitsPerMs : Nat := 256000000

/-- Elapsed time since a reading, modulo 2^64 (00_scope.md, Elapsed time). -/
def State.since (s : State) (r : Elapsed) : Nat := (s.elapsed - r).toNat

/-- The elapsed counter has advanced more than `units` past a reading. A reading may lie a little ahead of the counter,
an egress latency having been added to it (R10): the counter has then not reached it and nothing is past
(assumption 15). -/
def State.pastBy (s : State) (r : Elapsed) (units : Nat) : Bool :=
  decide (units < s.since r) && decide (s.since r < 2 ^ 63)

/-- The elapsed counter has reached a reading, compared modulo 2^64 (R93). -/
def State.reached (s : State) (r : Elapsed) : Bool := decide ((s.elapsed - r).toNat < 2 ^ 63)

/-- Stamp `r` is earlier than `b`: `b` minus `r`, modulo 2^64, lies in 1 to 2^63 (R89). -/
def earlierThan (r b : Elapsed) : Bool := decide (1 ≤ (b - r).toNat ∧ (b - r).toNat ≤ 2 ^ 63)

/-- The ingress stamp read at the present tick, with the ingress latency that was in force when it was taken (R3, R37).
No command marks the moment at which a frame's first byte passes the stamping point: where a PORT write falls between
that moment and the command that fixes the latency, which latency the stamp takes is the model's choice (DESIGN CHOICE,
assumption 14). That command is the tick that finds the frame being received, or the FRAME_RECEIVED of a frame that
ended before any tick. -/
def ingressStamp (s : State) (latency : Nat) : Stamp :=
  { time := s.time.reading - latency, elapsed := s.elapsed - BitVec.ofNat 64 latency }

/-- The egress stamp read at the present tick, with the egress latency that was in force when it was taken (R10, R37).
The latency is the one in force at the frame's TRANSMIT_START: where a PORT write falls between that command and the
moment at which the frame's first byte passes the stamping point, that is the model's choice (DESIGN CHOICE,
assumption 14). -/
def egressStamp (s : State) (latency : Nat) : Stamp :=
  { time := s.time.reading + latency, elapsed := s.elapsed + BitVec.ofNat 64 latency }

/-! ### Records in force -/

/-- The active bank (R145). -/
def State.bank (s : State) : Bank := s.banks[s.active]

/-- Cadence record `n` of the active bank. -/
def State.cadRec (s : State) (n : Fin 8) : CadRec := s.bank.cad[n]

/-- Label configuration `m` of the active bank. -/
def State.label (s : State) (m : Fin 2) : LabelCfg := s.bank.labels[m]

/-- The state with the runtime of cadence `n` replaced. -/
def State.setCad (s : State) (n : Fin 8) (x : CadRun) : State := { s with cad := s.cad.set n x }

/-- The state with serializer `m` replaced. -/
def State.setSer (s : State) (m : Fin 2) (x : Serializer) : State := { s with ser := s.ser.set m x }

/-- The state with capture line `n` replaced. -/
def State.setCap (s : State) (n : Fin 4) (x : CapLine) : State := { s with cap := s.cap.set n x }

/-- The numbers of the cadences, in rising order. -/
def allCad : List (Fin 8) := [0, 1, 2, 3, 4, 5, 6, 7]

/-- The numbers of the capture lines and of the event groups, in rising order. -/
def allFour : List (Fin 4) := [0, 1, 2, 3]

/-- The numbers of the serializers, in rising order. -/
def bothSer : List (Fin 2) := [0, 1]

/-- The slots of the source table, in rising order. -/
def allSlots : List (Fin 8) := [0, 1, 2, 3, 4, 5, 6, 7]

/-- The source record that is selected, if any (R64). -/
def State.selected (s : State) : Option SourceRec :=
  s.sources.toList.findSome? fun r =>
    match r with
    | some x => if x.selected then some x else none
    | none => none

/-- The name of a source: its sender identity and port number (R64). -/
abbrev SourceName := Ident × BitVec 16

/-- The name of the selected source, if any. -/
def State.selectedName (s : State) : Option SourceName := s.selected.map fun r => (r.sender, r.portNo)

/-- The civil offset in force, and whether it comes from the selected source record (R66). -/
def State.civilInForce (s : State) : Int × Bool :=
  match s.selected with
  | some r => if r.civilValid then (r.civil, true) else (s.civil, false)
  | none => (s.civil, false)

/-! ### Frames the part builds -/

/-- The part's timing identity: 0x6A1C followed by the station address (00_scope.md, Terms; R197). -/
def State.identity (s : State) : Ident := (0x6A1C#16 ++ s.station : BitVec 64)

/-- The bytes of an address. -/
def addrBytes (a : Addr) : List Byte := beBytes 6 a.toNat

/-- The bytes of an optional 802.1Q tag (R20). -/
def tagBytes : Option (BitVec 16) → List Byte
  | some tci => [0x81, 0x00] ++ beBytes 2 tci.toNat
  | none => []

/-- The 10 bytes of a time given in whole ns: seconds in 6 bytes, then nanoseconds in 4 (R209). Where the seconds do
not fit in 6 bytes the field is a free value (assumption 9). -/
def timeBytes (ns : Nat) : List Byte :=
  let sec := ns / 10 ^ 9
  beBytes 6 (if sec < 2 ^ 48 then sec else (Config.secondsBeyondField sec).toNat) ++ beBytes 4 (ns % 10 ^ 9)

/-- A management frame (R209): Ethernet header, management header of version 1, body, padding. -/
def mgmtFrame (dst src : Addr) (tci : Option (BitVec 16)) (kind tag cmd status : Nat) (body : List Byte) :
    List Byte :=
  padded (addrBytes dst ++ addrBytes src ++ tagBytes tci ++ [0x9A, 0x3C] ++
    [1, BitVec.ofNat 8 kind] ++ beBytes 2 tag ++ [BitVec.ofNat 8 cmd, BitVec.ofNat 8 status] ++
    beBytes 2 body.length ++ body)

end Sys2Proof.Machine
end

