-- ==== Sys2Proof/Machine/Flags.lean ====
section
/-!
DEFINITION. Machine/Flags.lean: the 32 event flags, the event notifier (R203 to R205) and the arrival of a frame at an
egress queue (R8). They stand together because each can cause the other: a notification arrives at a queue, and a
full queue raises an event.
-/

namespace Sys2Proof.Machine

/-- The events of 11.5. -/
inductive Event where
  | lockGained
  | lockLost
  | holdoverEntered
  | holdoverExpired
  | timeStepped
  | sourceChanged
  | clockLoss
  | clockRestored
  | realigned (n : Fin 8)
  | phaseAlarm (n : Fin 4)
  | captureFull (n : Fin 4)
  | residenceMiss
  | queueDrop (p : Port)
  | labelOverrun (m : Fin 2)
  | bankSwitched
  | oneshotDone
  | oneshotMissed
  deriving DecidableEq, Repr

/-- The group of an event (11.5, table). -/
def Event.group : Event → Fin 4
  | .lockGained => 0
  | .lockLost => 0
  | .holdoverEntered => 0
  | .holdoverExpired => 0
  | .timeStepped => 0
  | .sourceChanged => 0
  | .clockLoss => 0
  | .clockRestored => 0
  | .realigned _ => 1
  | .phaseAlarm _ => 2
  | .captureFull _ => 2
  | .residenceMiss => 3
  | .queueDrop _ => 3
  | .labelOverrun _ => 3
  | .bankSwitched => 3
  | .oneshotDone => 3
  | .oneshotMissed => 3

/-- The position of an event in its group's masks (11.5, table). -/
def Event.pos : Event → Nat
  | .lockGained => 0
  | .lockLost => 1
  | .holdoverEntered => 2
  | .holdoverExpired => 3
  | .timeStepped => 4
  | .sourceChanged => 5
  | .clockLoss => 6
  | .clockRestored => 7
  | .realigned n => n
  | .phaseAlarm n => n
  | .captureFull n => 4 + n
  | .residenceMiss => 0
  | .queueDrop .n => 1
  | .queueDrop .d => 2
  | .labelOverrun m => 3 + m
  | .bankSwitched => 5
  | .oneshotDone => 6
  | .oneshotMissed => 7

/-- The mask of one position (R209: bit p counted from the least significant bit). -/
def posMask (p : Nat) : BitVec 8 := 1#8 <<< p

/-- The pending flag of an event (R203). -/
def State.isPending (s : State) (e : Event) : Bool := s.groups[e.group].pending.getLsbD e.pos

/-- The enable flag of an event (R207). -/
def State.isEnabled (s : State) (e : Event) : Bool := s.notifyCfg[e.group].enable.getLsbD e.pos

/-- The state with group `g` replaced. -/
def State.setGroup (s : State) (g : Fin 4) (x : Group) : State := { s with groups := s.groups.set g x }

/-- Frames built by the part or forwarded arrive at a port's egress queue (R8). `drop` is what raising
QUEUE_DROP_N or QUEUE_DROP_D does. -/
def arriveWith (drop : Event → State → State) (p : Port) (c : TClass) (e : EgressEntry) (s : State) : State :=
  let x := s.port p
  if x.link = .down then s
  else if (x.queue c).length < queueCap c then s.setPort p (x.setQueue c (x.queue c ++ [e]))
  else drop (.queueDrop p) s

/-- A notification frame of group `g` to `dst` (R205): kind NOTIFY, the tag field carrying the notification sequence,
command and status 0; the body gives the group, its pending mask, its enable mask and the time counter reading. -/
def notifyFrame (g : Fin 4) (dst : Addr) (s : State) : List Byte :=
  mgmtFrame dst s.station none 3 s.notifySeq.toNat 0 0
    ([BitVec.ofNat 8 g, s.groups[g].pending, s.notifyCfg[g].enable] ++ timeBytes s.time.totalNs)

/-- A notification of group `g` is composed and handed to the ordinary-class queue of the group's egress port, and
the notification sequence is raised (R205, R13). -/
def notifyWith (drop : Event → State → State) (g : Fin 4) (dst : Addr) (s : State) : State :=
  arriveWith drop s.notifyCfg[g].egress .ordinary
    { bytes := notifyFrame g dst s, origin := .notification } { s with notifySeq := s.notifySeq + 1 }

/-- The table of R204: group `g` acts on an enabled event that has become pending. A group that enters HOLDOFF does so
before its notification can be discarded (assumption 8). -/
def groupActWith (drop : Event → State → State) (g : Fin 4) (s : State) : State :=
  match s.groups[g].st, s.notifyCfg[g].dest with
  | .idle, none => s
  | .idle, some dst =>
    if s.notifyCfg[g].holdoff = 0 then notifyWith drop g dst s
    else
      notifyWith drop g dst
        (s.setGroup g { s.groups[g] with st := .holdoff s.elapsed s.notifyCfg[g].holdoff })
  | .holdoff _ _, _ => s.setGroup g { s.groups[g] with reported := true }

/-- Raising an event (R203), to a depth. A QUEUE_DROP that a discarded notification raises is one level deeper; each
level sets a pending flag of its own, so no event goes deeper than three levels. -/
def raiseDepth : Nat → Event → State → State
  | 0, _, s => s
  | n + 1, e, s =>
    if s.isPending e then s
    else
      let g := e.group
      let s1 := s.setGroup g { s.groups[g] with pending := s.groups[g].pending ||| posMask e.pos }
      if s1.isEnabled e then groupActWith (raiseDepth n) g s1 else s1

/-- Raising an event (R203). -/
def raise (e : Event) (s : State) : State := raiseDepth 4 e s

/-- Raising an event where a condition holds. -/
def raiseIf (c : Bool) (e : Event) (s : State) : State := if c then raise e s else s

/-- A frame arrives at a port's egress queue (R8): discarded at a DOWN port, joined at the tail, or discarded at a full
queue with QUEUE_DROP. -/
def arrive (p : Port) (c : TClass) (e : EgressEntry) (s : State) : State := arriveWith raise p c e s

/-- A frame directed to this queue would join it (R8). -/
def canJoin (p : Port) (c : TClass) (s : State) : Bool :=
  decide ((s.port p).link = .up) && decide (((s.port p).queue c).length < queueCap c)

/-- HOLDOFF_END (R204) for group `g`: the end of the holdoff. The flag is cleared and the holdoff restarted before the
notification is sent (DESIGN CHOICE, assumption 8): a QUEUE_DROP raised by the discard of group 3's own notification
sets the flag again. -/
def endHoldoff (g : Fin 4) (s : State) : State :=
  match s.groups[g].st with
  | .idle => s
  | .holdoff start ms =>
    if s.since start ≤ ms * unitsPerMs then s
    else
      match s.groups[g].reported, s.notifyCfg[g].dest with
      | true, some dst =>
        notifyWith raise g dst
          (s.setGroup g
            { s.groups[g] with st := .holdoff s.elapsed s.notifyCfg[g].holdoff, reported := false })
      | _, _ => s.setGroup g { s.groups[g] with st := .idle, reported := false }

/-- HOLDOFF_END. -/
def execHoldoffEnd (g : Fin 4) (s : State) : Answer := .next (endHoldoff g s)

end Sys2Proof.Machine
end

