-- ==== Sys2Proof/Machine/Labels.lean ====
section
/-!
DEFINITION. Machine/Labels.lean: the label serializers (Chapter 9) and the output pins (R159).
-/

namespace Sys2Proof.Machine

/-- The tick count at which a word is complete: d + 96 × p (R168). -/
def wordTicks (c : LabelCfg) : Nat := c.delay + 96 * c.period

/-- The word is complete: the state at each tick follows from the tick count alone (R168). -/
def LabelWord.isDone (c : LabelCfg) (w : LabelWord) : Bool := decide (wordTicks c ≤ w.count)

/-- The serializer is SHIFTING under its configuration: it holds a word that is not complete. -/
def Serializer.busy (c : LabelCfg) (x : Serializer) : Bool :=
  match x.word with
  | some w => !w.isDone c
  | none => false

/-- The word composed for the edge of index `k` at time `e` of cadence `n` (R166; layout of R209, bit 0 sent first and
most significant). -/
def composeBits (s : State) (n : Fin 8) (k e : Nat) (stepSeen : Bool) : BitVec 96 :=
  let c := s.civilInForce
  BitVec.ofInt 48 ((e / 10 ^ 9 : Nat) + c.1) ++ BitVec.ofNat 40 k ++ BitVec.ofNat 3 n ++
    BitVec.ofBool s.servo.locked ++ BitVec.ofBool s.servo.traced ++ BitVec.ofBool stepSeen ++
    BitVec.ofBool (decide (s.clock ≠ .normal)) ++ BitVec.ofBool c.2

/-- Serializer `m` is told of an edge (R165, R170): composing clears the step-seen flag (R167); a SHIFTING serializer
starts no word and LABEL_OVERRUN_m is raised. -/
def tellSerializer (n : Fin 8) (k e : Nat) (m : Fin 2) (s : State) : State :=
  let c := s.label m
  let x := s.ser[m]
  if c.enable = false ∨ c.cadence ≠ n then s
  else if x.busy c then raise (.labelOverrun m) s
  else
    s.setSer m
      { x with
        word := some { bits := composeBits s n k e x.stepSeen, index := k, stepSeen := x.stepSeen, count := 0 }
        stepSeen := false }

/-- An edge of cadence `n` is told to the serializers bound to it (R165): serializer 0 first, so that LABEL_OVERRUN_0 is
raised before LABEL_OVERRUN_1 where one edge finds both SHIFTING (DESIGN CHOICE, assumption 8). -/
def tellEdge (n : Fin 8) (k e : Nat) (s : State) : State :=
  bothSer.foldl (fun t m => tellSerializer n k e m t) s

/-- A word in progress is abandoned or dropped, its STEP_SEEN value returned to the flag (R167, R172 to R174). A word
that is complete has ended already. -/
def Serializer.abandon (c : LabelCfg) (x : Serializer) : Serializer :=
  match x.word with
  | some w => { x with word := none, stepSeen := x.stepSeen || (!w.isDone c && w.stepSeen) }
  | none => x

/-- One tick is counted for a word in progress (R168). -/
def Serializer.countTick (x : Serializer) : Serializer :=
  { x with word := x.word.map fun w => { w with count := w.count + 1 } }

/-- The data and clock outputs of a serializer (R168, R169). -/
def Serializer.outputs (c : LabelCfg) (x : Serializer) : Bool × Bool :=
  let idleClk := decide (c.edge = .falling)
  if c.enable = false then (false, false)
  else
    match x.word with
    | none => (false, idleClk)
    | some w =>
      if w.count < c.delay ∨ w.isDone c then (false, idleClk)
      else
        let i := (w.count - c.delay) / c.period
        let ph := (w.count - c.delay) % c.period
        (w.bits.getMsbD i, if ph < c.period / 2 then idleClk else !idleClk)

/-- A serializer showing these outputs. -/
def Serializer.showing (x : Serializer) (o : Bool × Bool) : Serializer := { x with data := o.1, clk := o.2 }

/-- The routed source is active (R158, table). -/
def Source.isActive (v : TickView) : Source → Bool
  | .low => false
  | .high => true
  | .cadence n => v.active[n]
  | .labelData m => v.ser[m].1
  | .labelClock m => v.ser[m].2
  | .locked => v.locked
  | .traced => v.traced
  | .backup => v.backup

/-- The level a route gives its pin: HIGH when active and NORMAL, or inactive and INVERTED (R159). -/
def Route.level (v : TickView) (r : Route) : Bool :=
  match r.polarity with
  | .normal => r.source.isActive v
  | .inverted => !r.source.isActive v

/-- The level line `i` takes from its route (R159). -/
def pinLevel (v : TickView) (i : Fin 12) : Bool := (v.lines[i]).level v

/-- The serializers and the pins show the levels of the tick, which has no more to come (R159, R168). Nothing else
changes. -/
def showOutputs (v : TickView) (s : State) : State :=
  { s with
    ser := #v[s.ser[0].showing v.ser[0], s.ser[1].showing v.ser[1]]
    pins := #v[pinLevel v 0, pinLevel v 1, pinLevel v 2, pinLevel v 3, pinLevel v 4, pinLevel v 5, pinLevel v 6,
      pinLevel v 7, pinLevel v 8, pinLevel v 9, pinLevel v 10, pinLevel v 11]
    view := none }

/-- LABEL_WORD_COMPLETE (R168): at tick count d + 96 × p the word is complete and the serializer is IDLE. Its outputs
have stood at their idle levels since that tick. -/
def completeWord (m : Fin 2) (s : State) : State :=
  match s.ser[m].word with
  | some w => if w.isDone (s.label m) then s.setSer m { s.ser[m] with word := none } else s
  | none => s

/-- LABEL_WORD_COMPLETE. -/
def execLabelWordComplete (m : Fin 2) (s : State) : Answer := .next (completeWord m s)

end Sys2Proof.Machine
end

