-- ==== Sys2Proof/Machine/Cadence.lean ====
section
/-!
DEFINITION. Machine/Cadence.lean: edge times (R123), the runtime of the cadences (R124 to R139), the making of a bank
switch (R141, R155, R173, R174), and what an edge tells the serializers and a waiting switch.
-/

namespace Sys2Proof.Machine

/-! ### Edge times (R123) -/

/-- The period as a fraction over `num`: den × 10^9. -/
def CadRec.span (r : CadRec) : Nat := r.den * 10 ^ 9

/-- E(k) in ns since the epoch (R123). -/
def CadRec.edgeTime (r : CadRec) (k : Nat) : Nat := k * r.span / r.num + r.phase

/-- F(k), the fall of a SQUARE output (R126). -/
def CadRec.fallTime (r : CadRec) (k : Nat) : Nat := (2 * k + 1) * r.span / (2 * r.num) + r.phase

/-- floor(P), the whole ns of the period (R119). -/
def CadRec.floorP (r : CadRec) : Nat := r.span / r.num

/-- The end time of the output that edge `k` starts (R126). -/
def CadRec.endTime (r : CadRec) (k : Nat) : Nat :=
  match r.shape with
  | .pulse => r.edgeTime k + r.width
  | .square => r.fallTime k

/-- The smallest index whose edge lies at or after `t` ns. -/
def CadRec.firstAt (r : CadRec) (t : Nat) : Nat :=
  if t ≤ r.phase then 0 else ((t - r.phase) * r.num + r.span - 1) / r.span

/-- The time counter is at or past `t` ns, its fraction included (R123). -/
def State.atOrPast (s : State) (t : Nat) : Bool := decide (t * 2 ^ 32 ≤ s.time.total)

/-! ### Starts and restarts -/

/-- The state in which a cadence starts (R125, table), its first edge the smallest index with an edge at or after
`least` ns. -/
def startState (r : CadRec) (traced : Bool) (least : Nat) : CadState :=
  match r.mode with
  | .off => .off
  | .oneShot => .idle
  | .continuous =>
    if r.policy = .whenTraced ∧ traced = false then .waiting
    else .running (r.firstAt least) (r.edgeTime (r.firstAt least))

/-- The least edge time of the later-than form at the present counter value: later than it (R125). -/
def laterThanNow (s : State) : Nat := s.time.totalNs + 1

/-- The least edge time of the at-or-after form with start time `at` (in ns) and `before`, the value taken for the tick
before (in 2^−32 ns): at or after the one and later than the other (R125). -/
def atOrAfter (at_ before : Nat) : Nat := max at_ (before / 2 ^ 32 + 1)

/-- Cadence `n` restarted from a record: its output inactive, any arming lost, its last edge kept (R139, R141). -/
def restartCad (n : Fin 8) (r : CadRec) (least : Nat) (s : State) : State :=
  s.setCad n
    { st := startState r s.servo.traced least, pulse := none, last := s.cad[n].last, endedNow := false }

/-- The traced flag is set: every WAITING cadence starts by the later-than form (R108, R129). -/
def startWaiting (s : State) : State :=
  allCad.foldl
    (fun t n =>
      match t.cad[n].st with
      | .waiting => t.setCad n { t.cad[n] with st := startState (t.cadRec n) true (laterThanNow t) }
      | _ => t) s

/-! ### Edges -/

/-- The end time that an output starting now is given: none when the counter stands at its top and the end lies beyond
it (R137). R137 speaks of the tick at which the counter saturates; an edge that R128 puts off to a later tick is treated
in the same way, so that its output never goes active (DESIGN CHOICE, assumption 23). -/
def pulseUntil (s : State) (e : Nat) : Option Nat :=
  if s.time = TimeVal.top ∧ limitNs ≤ e then none else some e

/-- The edge of index `k` at time `t` of cadence `n` is produced, leaving the cadence in `next` (R126, R132): the output
goes active, the last edge becomes this one, and the edge is told to the bound serializers. -/
def produceEdge (n : Fin 8) (k t : Nat) (next : CadState) (s : State) : State :=
  tellEdge n k t
    (s.setCad n
      { st := next, pulse := pulseUntil s ((s.cadRec n).endTime k), last := some (k, t), endedNow := false })

/-! ### The bank switch -/

/-- The value R125 takes for the tick before, for a switch at an edge of time `t`: when R128 produced the edge one tick
after the tick that reached it, the value of the tick before that tick (R153). -/
def valueBefore (s : State) (t : Nat) : Nat := if t * 2 ^ 32 ≤ s.prevTime then s.prevTime2 else s.prevTime

/-- Cadence `n` at a switch (R141): untouched when its records are equal, restarted by the at-or-after form when not. -/
def switchCad (out inc : Bank) (least : Nat) (n : Fin 8) (s : State) : State :=
  if out.cad[n] = inc.cad[n] then s else restartCad n inc.cad[n] least s

/-- The word in progress was begun at this very tick. -/
def Serializer.isFresh (x : Serializer) : Bool :=
  match x.word with
  | some w => decide (w.count = 0)
  | none => false

/-- A serializer at a switch (R173, R174): with a changed configuration its word is abandoned; with an equal one, a word
begun at this very tick by a cadence that the switch restarts is dropped. That holds too when the cadence's record was
rewritten between the edge and the switch of that tick, so that the word is kept where the rewritten record equals the
incoming one, and dropped where they differ (DESIGN CHOICE, assumption 25). -/
def switchSer (out inc : Bank) (m : Fin 2) (s : State) : State :=
  let c : LabelCfg := out.labels[m]
  let x : Serializer := s.ser[m]
  if out.labels[m] ≠ inc.labels[m] then s.setSer m (x.abandon c)
  else if x.isFresh = true ∧ out.cad[c.cadence] ≠ inc.cad[c.cadence] then s.setSer m (x.abandon c)
  else s

/-- The switch to bank `target` is made with trigger time `at_`, `before` being the value taken for the tick before
(R155). -/
def makeSwitch (target : Fin 4) (at_ before : Nat) (s : State) : State :=
  let out := s.bank
  let inc := s.banks[target]
  let s1 := allCad.foldl (fun t n => switchCad out inc (atOrAfter at_ before) n t) s
  let s2 := bothSer.foldl (fun t m => switchSer out inc m t) s1
  raise .bankSwitched { s2 with active := target, switch := none }

/-- An edge (R153) or a miss (R154) of cadence `n` at time `t` reaches a switch that waits for it. -/
def tellSwitch (n : Fin 8) (t before : Nat) (s : State) : State :=
  match s.switch with
  | some q =>
    match q.trigger with
    | .atEdge c => if c = n then makeSwitch q.target t before s else s
    | .atTime _ _ => s
  | none => s

/-! ### The events and the outputs of a tick -/

/-- R128 holds an edge back at the present tick: the output ended at it, or its end time is reached and it is about to.
-/
def heldBack (s : State) (x : CadRun) : Bool :=
  x.endedNow || x.pulse.any s.atOrPast

/-- The ns of an AT_TIME trigger. -/
def triggerNs (sec ns : Nat) : Nat := sec * 10 ^ 9 + ns

/-- A pending AT_TIME switch is to be made at the latest tick (R151). -/
def SwitchReq.isReached (s : State) (q : SwitchReq) : Bool :=
  match q.trigger with
  | .atTime sec ns => if q.due then q.dueTick else s.atOrPast (triggerNs sec ns)
  | .atEdge _ => false

/-- An ARMED one-shot would miss: its run policy is WHEN_TRACED and the traced flag is clear (R132). -/
def State.wouldMiss (s : State) (n : Fin 8) : Bool :=
  decide ((s.cadRec n).policy = .whenTraced) && !s.servo.traced

/-- The latest tick reaches an event of cadence `n` that is still to be taken: the end of its output (R127), its next
edge (R126, unless R128 puts it off), or its armed edge (R132). -/
def State.cadReached (s : State) (n : Fin 8) : Bool :=
  let x := s.cad[n]
  x.pulse.any s.atOrPast ||
    (match x.st with
      | .running _ t => s.atOrPast t && x.pulse.isNone && !x.endedNow
      | .armed _ t => s.atOrPast t && (s.wouldMiss n || !heldBack s x)
      | _ => false)

/-- The latest tick reaches an event that is still to be taken: one of a cadence, or the time of a switch (R151). -/
def State.eventReached (s : State) : Bool := allCad.any s.cadReached || s.switch.any fun q => q.isReached s

/-- The output of cadence `n` at the latest tick: active, and its end time not reached (R127). -/
def State.isLive (s : State) (n : Fin 8) : Bool := s.cad[n].pulse.any fun e => !s.atOrPast e

/-- The outputs of serializer `m` under its configuration (R168, R169). -/
def State.serOutputs (s : State) (m : Fin 2) : Bool × Bool := s.ser[m].outputs (s.label m)

/-- What the outputs are taken from as the state stands (R158, R159). -/
def State.viewNow (s : State) : TickView :=
  { active := #v[s.isLive 0, s.isLive 1, s.isLive 2, s.isLive 3, s.isLive 4, s.isLive 5, s.isLive 6, s.isLive 7]
    ser := #v[s.serOutputs 0, s.serOutputs 1]
    lines := s.bank.lines
    locked := s.servo.locked
    traced := s.servo.traced
    backup := decide (s.clock ≠ .normal) }

/-- What led from `s` to `t` leaves cadence `n` and its output as they were, or gives it a new one. -/
def TickView.cadAfter (s t : State) (v : TickView) (n : Fin 8) : Bool :=
  if t.cad[n] = s.cad[n] then v.active[n] else t.isLive n

/-- What led from `s` to `t` leaves serializer `m` as it was, or changes its word or its configuration. -/
def TickView.serAfter (s t : State) (v : TickView) (m : Fin 2) : Bool × Bool :=
  if t.ser[m].word = s.ser[m].word ∧ t.label m = s.label m then v.ser[m] else t.serOutputs m

/-- What a tick shows after the event of it that led from `s` to `t`: a switch shows every cadence, every serializer and
the routes as the incoming bank leaves them (R156, R157, R173); any other event, what it changed (R159). The flags are
those of the tick, and what other commands change of routes and label configurations between ticks is not in it: they
reach the outputs at the next tick (R159, R160, R172; assumption 6). -/
def TickView.follow (s t : State) (v : TickView) : TickView :=
  if t.switch = s.switch then
    let a := v.cadAfter s t
    { v with
      active := #v[a 0, a 1, a 2, a 3, a 4, a 5, a 6, a 7]
      ser := #v[v.serAfter s t 0, v.serAfter s t 1] }
  else { t.viewNow with locked := v.locked, traced := v.traced, backup := v.backup }

/-- The outputs take the levels of the latest tick once no event of it is still to be taken (R159; DESIGN CHOICE,
assumption 6). -/
def settleTick (s : State) : State :=
  match s.view with
  | some v => if s.eventReached then s else showOutputs v s
  | none => s

/-- An event of the latest tick that led from `s` to `t` has been taken, or a rewrite that ended an output (R139, R157).
-/
def endEvent (s t : State) : State := settleTick { t with view := t.view.map (TickView.follow s t) }

/-! ### The cadence events -/

/-- CADENCE_EDGE (R126): a RUNNING cadence whose next edge time the counter has reached produces it, but not while its
output is active nor at the tick at which the output ended (R128). The serializers bound in the outgoing configuration
are told of a trigger edge before the switch it reaches is made (DESIGN CHOICE, assumption 8): where the switch leaves
the cadence untouched but changes a label configuration, the word begun for that edge is abandoned (R173), and a
serializer bound to the cadence by its incoming configuration alone gets no word for it. -/
def cadenceEdge (n : Fin 8) (s : State) : State :=
  let x := s.cad[n]
  match x.st with
  | .running k t =>
    if s.atOrPast t = true ∧ x.pulse = none ∧ x.endedNow = false then
      let r := s.cadRec n
      endEvent s (tellSwitch n t (valueBefore s t) (produceEdge n k t (.running (k + 1) (r.edgeTime (k + 1))) s))
    else s
  | _ => s

/-- CADENCE_EDGE. -/
def execCadenceEdge (n : Fin 8) (s : State) : Answer := .next (cadenceEdge n s)

/-- PULSE_END (R127): an active output whose end time the counter has reached goes inactive. -/
def pulseEnd (n : Fin 8) (s : State) : State :=
  match s.cad[n].pulse with
  | some e =>
    if s.atOrPast e then endEvent s (s.setCad n { s.cad[n] with pulse := none, endedNow := true }) else s
  | none => s

/-- PULSE_END. -/
def execPulseEnd (n : Fin 8) (s : State) : Answer := .next (pulseEnd n s)

/-- ONESHOT_FIRE (R132): an ARMED cadence whose armed edge the counter has reached. It fires with ONESHOT_DONE, though
not at the tick that also reaches the end of an earlier output (R128), or under WHEN_TRACED with the traced flag clear
goes to DONE with ONESHOT_MISSED; either reaches a waiting switch (R153, R154). An output still active whose end time is
not reached is replaced. As in `cadenceEdge` the serializers are told before a switch is made, and ONESHOT_DONE or
ONESHOT_MISSED is raised before the BANK_SWITCHED of a switch that the firing or the miss makes. A serializer that the
firing finds SHIFTING raises its LABEL_OVERRUN before ONESHOT_DONE (R170). These orders are the model's (DESIGN CHOICE,
assumption 8). -/
def oneshotFire (n : Fin 8) (s : State) : State :=
  let x := s.cad[n]
  match x.st with
  | .armed k t =>
    if s.atOrPast t = false then s
    else if s.wouldMiss n then
      endEvent s (tellSwitch n t (valueBefore s t) (raise .oneshotMissed (s.setCad n { x with st := .done })))
    else if heldBack s x then s
    else endEvent s (tellSwitch n t (valueBefore s t) (raise .oneshotDone (produceEdge n k t .done s)))
  | _ => s

/-- ONESHOT_FIRE. -/
def execOneshotFire (n : Fin 8) (s : State) : Answer := .next (oneshotFire n s)

/-- AT_TIME_REACHED (R151): the counter has reached the time of a pending AT_TIME switch, or the tick after a request
already due has come. -/
def atTimeReached (s : State) : State :=
  match s.switch with
  | some q =>
    match q.trigger with
    | .atTime sec ns =>
      if q.isReached s then endEvent s (makeSwitch q.target (triggerNs sec ns) s.prevTime s) else s
    | .atEdge _ => s
  | none => s

/-- AT_TIME_REACHED. -/
def execAtTimeReached (s : State) : Answer := .next (atTimeReached s)

/-! ### Steps and the catch-up advance -/

/-- A step notice at cadence `n` (R133, R134): a RUNNING cadence is realigned; an ARMED one whose edge the stepped value
has passed goes to DONE and misses; an output still active in DONE goes inactive. -/
def stepCad (n : Fin 8) (s : State) : State :=
  let x := s.cad[n]
  match x.st with
  | .running _ _ =>
    let k := (s.cadRec n).firstAt (laterThanNow s)
    raise (.realigned n)
      (s.setCad n { x with st := .running k ((s.cadRec n).edgeTime k), pulse := none, endedNow := false })
  | .armed _ t =>
    if s.atOrPast t then raise .oneshotMissed (s.setCad n { x with st := .done, pulse := none }) else s
  | .done => s.setCad n { x with pulse := none }
  | _ => s

/-- The output of a cadence after an advance to the present counter value: inactive when its end time was reached. -/
def pulseAfter (s : State) (p : Option Nat) : Option Nat :=
  match p with
  | some e => if s.atOrPast e then none else some e
  | none => none

/-- The catch-up advance at cadence `n` (R136, table). An edge that R128 put off to this very tick counts as one the
advance has passed: it is dropped with REALIGNED, and a firing so put off is missed (DESIGN CHOICE, assumption 22). -/
def catchUpCad (n : Fin 8) (s : State) : State :=
  let x := s.cad[n]
  let ended := { x with pulse := pulseAfter s x.pulse }
  match x.st with
  | .running _ t =>
    if s.atOrPast t then
      let k := (s.cadRec n).firstAt (laterThanNow s)
      raise (.realigned n)
        (s.setCad n { x with st := .running k ((s.cadRec n).edgeTime k), pulse := none, endedNow := false })
    else s.setCad n ended
  | .armed _ t =>
    if s.atOrPast t then raise .oneshotMissed (s.setCad n { ended with st := .done }) else s.setCad n ended
  | _ => s.setCad n ended

/-- The armed edge that a step or a catch-up advance made cadence `n` miss, judged on the state before the cadences
acted, at the counter value of the state after. -/
def missedEdge (before after : State) (n : Fin 8) : Option Nat :=
  match before.cad[n].st with
  | .armed _ t => if after.atOrPast t then some t else none
  | _ => none

/-- What a step notice (R152, R154) or a catch-up advance (R151, R154) does with a pending switch: an AT_TIME switch
that is due or whose time is at or before the counter is made; an AT_EDGE switch on a one-shot that missed is made with
its edge time. The value taken for the tick before is the present one (`prevTime`, set by the tick). -/
def reevaluateSwitch (before s : State) : State :=
  match s.switch with
  | some q =>
    match q.trigger with
    | .atTime sec ns =>
      if q.due = true ∨ s.atOrPast (triggerNs sec ns) = true then
        makeSwitch q.target (triggerNs sec ns) s.prevTime s
      else s
    | .atEdge c =>
      match missedEdge before s c with
      | some t => makeSwitch q.target t s.prevTime s
      | none => s
  | none => s

/-- The tick at which the counter stands at its top (R137): an output whose end time lies beyond it goes inactive. -/
def limitPulse (s : State) (p : Option Nat) : Option Nat :=
  match p with
  | some e => if s.time = TimeVal.top ∧ limitNs ≤ e then none else some e
  | none => none

/-- A cadence at a tick: the mark of R128 is cleared. -/
def CadRun.tick (x : CadRun) : CadRun := { x with endedNow := false }

/-- The cadences with a function applied to each. -/
def mapCad (f : CadRun → CadRun) (v : Vector CadRun 8) : Vector CadRun 8 :=
  #v[f v[0], f v[1], f v[2], f v[3], f v[4], f v[5], f v[6], f v[7]]

end Sys2Proof.Machine
end

