-- ==== Sys2Proof/Machine/Capture.lean ====
section
/-!
DEFINITION. Machine/Capture.lean: the capture lines and the phase comparison (Chapter 10).
-/

namespace Sys2Proof.Machine

/-! ### Sampling and qualification -/

/-- A qualifier re-seeded for an edge select (R180): idle under NONE, else waiting for the next tick's sample. -/
def seedFor (sel : EdgeSel) : Qualifier := if sel = .none then .idle else .seeding

/-- The qualifier at a tick at which its line samples `level` (R178, R180): a re-seed takes it as the accepted level; a
candidate of that level has its run count raised. Making and discarding a candidate are CAPTURE_INPUT_CHANGE. -/
def Qualifier.tick (level : Bool) : Qualifier → Qualifier
  | .idle => .idle
  | .seeding => .live level none
  | .live a none => .live a none
  | .live a (some c) => .live a (some (if c.level = level then { c with run := c.run + 1 } else c))

/-- A line at a tick (R178): with edge select NONE it samples nothing. -/
def CapLine.tick (r : CapRec) (level : Bool) (x : CapLine) : CapLine :=
  if r.sel = .none then x else { x with sample := level, qual := x.qual.tick level }

/-- The stamp a candidate of a level takes at the present tick (R179). -/
def stampNow (level : Bool) (s : State) : CapStamp :=
  { sec := s.time.sec, ns := s.time.ns, falling := !level, beforeStep := false }

/-- CAPTURE_INPUT_CHANGE (R178): at a tick whose sample differs from the accepted level a candidate is made; at one
whose sample equals it, a candidate is discarded. -/
def captureInputChange (n : Fin 4) (s : State) : State :=
  let x := s.cap[n]
  match x.qual with
  | .live a none =>
    if x.sample ≠ a then
      s.setCap n
        { x with qual := .live a (some { level := x.sample, stamp := stampNow x.sample s, run := 0 }) }
    else s
  | .live a (some _) => if x.sample = a then s.setCap n { x with qual := .live a none } else s
  | _ => s

/-- CAPTURE_INPUT_CHANGE. -/
def execCaptureInputChange (n : Fin 4) (s : State) : Answer := .next (captureInputChange n s)

/-! ### The ring -/

/-- The edge select names the direction of a transition to a level (R178). -/
def EdgeSel.names (e : EdgeSel) (level : Bool) : Bool :=
  match e with
  | .none => false
  | .rising => level
  | .falling => !level
  | .both => true

/-- A captured stamp at line `n` (R181, R182). -/
def storeStamp (n : Fin 4) (st : CapStamp) (s : State) : State :=
  let x := s.cap[n]
  match x.st, s.capRec[n].mode with
  | .full, _ => s
  | .run, .continuous =>
    raiseIf (decide (4 ≤ x.ring.length)) (.captureFull n) (s.setCap n { x with ring := pushNewest 4 st x.ring })
  | .run, .oneShot =>
    if 4 ≤ x.ring.length + 1 then
      raise (.captureFull n) (s.setCap n { x with ring := pushNewest 4 st x.ring, st := .full })
    else s.setCap n { x with ring := pushNewest 4 st x.ring }

/-! ### Phase comparison -/

/-- The time of a stamp in total ns (R179). -/
def CapStamp.totalNs (x : CapStamp) : Nat := x.sec * 10 ^ 9 + x.ns

/-- The edge of a record nearest to `x` ns: edge 0 before the phase; else of the last edge at or before `x` and the one
after it the nearer, the earlier on a tie (R187). -/
def CadRec.nearestEdge (r : CadRec) (x : Nat) : Nat :=
  if x < r.phase then r.edgeTime 0
  else
    let j := r.firstAt (x + 1) - 1
    if x - r.edgeTime j ≤ r.edgeTime (j + 1) - x then r.edgeTime j else r.edgeTime (j + 1)

/-- The half-width of a window index from 1 to 15 (R177): 2^(i+3) ns. -/
def halfWidth (i : BitVec 4) : Nat := 2 ^ (i.toNat + 3)

/-- A phase error at line `n` (R188) and the window test that follows it (R189). -/
def phaseResult (n : Fin 4) (e : Int) (s : State) : State :=
  let x := { s.cap[n] with phase := some e }
  let w := s.capRec[n].window
  if w = 0 then s.setCap n x
  else
    let inside := decide (e.natAbs ≤ halfWidth w)
    raiseIf (x.inWindow && !inside) (.phaseAlarm n) (s.setCap n { x with inWindow := inside })

/-- A captured transition is compared (R188), but not with bound cadence NONE, with a record that is OFF, or with a
stamp whose before-step flag is set. -/
def comparePhase (n : Fin 4) (st : CapStamp) (s : State) : State :=
  match s.capRec[n].bound with
  | none => s
  | some c =>
    if (s.cadRec c).mode = .off ∨ st.beforeStep = true then s
    else phaseResult n ((st.totalNs : Int) - ((s.cadRec c).nearestEdge st.totalNs : Nat)) s

/-- CAPTURE_ACCEPT (R178): a candidate whose run count has reached the qualification is accepted; a transition of a
selected direction is captured with the candidate's stamp, stored and compared. Where one acceptance raises both,
CAPTURE_FULL is raised before PHASE_ALARM (DESIGN CHOICE, assumption 8). -/
def captureAccept (n : Fin 4) (s : State) : State :=
  let x := s.cap[n]
  match x.qual with
  | .live _ (some c) =>
    if s.capRec[n].qual ≤ c.run ∧ x.sample = c.level then
      let s1 := s.setCap n { x with qual := .live c.level none }
      if s.capRec[n].sel.names c.level then comparePhase n c.stamp (storeStamp n c.stamp s1) else s1
    else s
  | _ => s

/-- CAPTURE_ACCEPT. -/
def execCaptureAccept (n : Fin 4) (s : State) : Answer := .next (captureAccept n s)

/-! ### Steps and reconfiguration -/

/-- A stamp marked as taken before a step (R183). -/
def CapStamp.mark (x : CapStamp) : CapStamp := { x with beforeStep := true }

/-- A candidate's stamp marked (R183). -/
def Qualifier.mark : Qualifier → Qualifier
  | .live a (some c) => .live a (some { c with stamp := c.stamp.mark })
  | q => q

/-- A step notice at a line (R183): every held stamp and a candidate's stamp get their before-step flag. -/
def CapLine.stepNotice (x : CapLine) : CapLine := { x with ring := x.ring.map CapStamp.mark, qual := x.qual.mark }

/-- The lines with a function applied to each. -/
def mapCap (f : Fin 4 → CapLine → CapLine) (v : Vector CapLine 4) : Vector CapLine 4 :=
  #v[f 0 v[0], f 1 v[1], f 2 v[2], f 3 v[3]]

/-- A line under a replaced record (R180): each changed field has its effect. -/
def CapLine.reconfigure (old new : CapRec) (x : CapLine) : CapLine :=
  { x with
    qual := if old.sel ≠ new.sel ∨ old.qual ≠ new.qual then seedFor new.sel else x.qual
    ring := if old.mode ≠ new.mode then [] else x.ring
    st := if old.mode ≠ new.mode then .run else x.st
    phase := if old.bound ≠ new.bound ∨ old.window ≠ new.window then none else x.phase
    inWindow := if old.bound ≠ new.bound ∨ old.window ≠ new.window then true else x.inWindow }

/-- A rearm (R185): the ring emptied, the line in RUN. -/
def CapLine.rearm (x : CapLine) : CapLine := { x with ring := [], st := .run }

/-- A line at a warm reset (R192). -/
def CapLine.warmReset (r : CapRec) (x : CapLine) : CapLine :=
  { x with qual := seedFor r.sel, ring := [], st := .run, phase := none, inWindow := true }

end Sys2Proof.Machine
end

