-- ==== Sys2Proof/Machine/Operands.lean ====
section
/-!
DEFINITION. Machine/Operands.lean: what is read out of a frame: the outer layers (R20, R21), the timing header and
its bodies (R22, R51, R52, R209), and the management header (R193, R209). Positions count from the first byte of the
destination address; `content` is a frame without its FCS.
-/

namespace Sys2Proof.Machine

/-- The IPv4/UDP layers of a frame (R21). -/
structure UdpFacts where
  dstPort : BitVec 16
  udpPos : Nat
  payPos : Nat
  payLen : Nat
  deriving DecidableEq, Repr

/-- The outer facts of a frame (2.3). -/
structure Facts where
  dst : Addr
  src : Addr
  tci : Option (BitVec 16)
  etherType : BitVec 16
  dataPos : Nat
  udp : Option UdpFacts
  deriving DecidableEq, Repr

/-- A number field of a frame as a bit vector. -/
def bitsAt (w : Nat) (bs : List Byte) (off len : Nat) : BitVec w := BitVec.ofNat w (fieldAt bs off len)

/-- The IPv4/UDP layers behind an Ethernet header of `dataPos` bytes (R21, table). -/
def udpFacts (content : List Byte) (dataPos : Nat) (etherType : BitVec 16) : Option UdpFacts :=
  let data := content.drop dataPos
  let ihl := (byteAt data 0).toNat % 16 * 4
  let total := fieldAt data 2 2
  let udpLen := fieldAt data (ihl + 4) 2
  if etherType = 0x0800#16 ∧ (byteAt data 0).toNat / 16 = 4 ∧ 20 ≤ ihl ∧ ihl ≤ data.length ∧ ihl + 8 ≤ total ∧
      total ≤ data.length ∧ fieldAt data 6 2 % 2 ^ 14 = 0 ∧ byteAt data 9 = 17#8 ∧ 8 ≤ udpLen ∧ udpLen ≤ total - ihl then
    some
      { dstPort := bitsAt 16 data (ihl + 2) 2, udpPos := dataPos + ihl, payPos := dataPos + ihl + 8,
        payLen := udpLen - 8 }
  else none

/-- The outer facts of a frame (R20): at most one tag is parsed, and it is a tag only when the type field is 0x8100. -/
def factsOf (content : List Byte) : Facts :=
  let tagged := bitsAt 16 content 12 2 = 0x8100#16
  let etherType := if tagged then bitsAt 16 content 16 2 else bitsAt 16 content 12 2
  let dataPos := if tagged then 18 else 14
  { dst := bitsAt 48 content 0 6
    src := bitsAt 48 content 6 6
    tci := if tagged then some (bitsAt 16 content 14 2) else none
    etherType := etherType
    dataPos := dataPos
    udp := udpFacts content dataPos etherType }

/-- The VLAN id of a tag: the low 12 bits of its control information (R20). -/
def vlanId (tci : BitVec 16) : BitVec 12 := tci.setWidth 12

/-- Where a carrier puts the timing header, and how many bytes are available there (R22). Behind a second stacked tag,
where 0x8100 is taken as the EtherType, the L2 position is absent (R20). -/
def carrierSpan (content : List Byte) (f : Facts) : Carrier → Option (Nat × Nat)
  | .none => none
  | .l2 => if f.etherType = 0x8100#16 then none else some (f.dataPos, content.length - f.dataPos)
  | .udp4 => f.udp.map fun u => (u.payPos, u.payLen)

/-- The timing header parses at a position with so many bytes available (R22). -/
def headerParses (content : List Byte) (pos avail : Nat) : Bool :=
  decide (28 ≤ avail) && byteAt content (pos + 1) == 2#8 && decide (28 ≤ fieldAt content (pos + 2) 2) &&
    decide (fieldAt content (pos + 2) 2 ≤ avail)

/-- The position of the timing header that a carrier finds, when it parses there (R22). -/
def headerPos (content : List Byte) (f : Facts) (c : Carrier) : Option Nat :=
  match carrierSpan content f c with
  | some (pos, avail) => if headerParses content pos avail then some pos else none
  | none => none

/-- The fields of a timing header (R51). -/
structure Hdr where
  kind : Nat
  len : Nat
  domain : BitVec 8
  interval : Int
  twoStep : Bool
  civilValid : Bool
  corr : Int
  sender : Ident
  portNo : BitVec 16
  seq : BitVec 16
  deriving DecidableEq, Repr

/-- The timing header at a position (R51; offsets of R209). -/
def readHdr (content : List Byte) (pos : Nat) : Hdr :=
  { kind := (byteAt content pos).toNat
    len := fieldAt content (pos + 2) 2
    domain := byteAt content (pos + 4)
    interval := signedOf 8 (byteAt content (pos + 5)).toNat
    twoStep := (byteAt content (pos + 7)).getLsbD 0
    civilValid := (byteAt content (pos + 7)).getLsbD 1
    corr := signedOf 64 (fieldAt content (pos + 8) 8)
    sender := bitsAt 64 content (pos + 16) 8
    portNo := bitsAt 16 content (pos + 24) 2
    seq := bitsAt 16 content (pos + 26) 2 }

/-- Kind codes (R51). -/
def kindBeacon : Nat := 1
/-- Kind code of a Mark (R51). -/
def kindMark : Nat := 2
/-- Kind code of a Follow (R51). -/
def kindFollow : Nat := 3
/-- Kind code of a Probe (R51). -/
def kindProbe : Nat := 4
/-- Kind code of a Probe Reply (R51). -/
def kindReply : Nat := 5

/-- The least length field of a message of a kind (R52); none for a kind outside 1 to 5. -/
def minLength : Nat → Option Nat
  | 1 => some 46
  | 2 => some 38
  | 3 => some 38
  | 4 => some 38
  | 5 => some 48
  | _ => none

/-- A timestamp of a message (R72). -/
structure Timestamp where
  sec : Nat
  ns : Nat
  deriving DecidableEq, Repr

/-- The 10-byte timestamp at a position (R209). -/
def readTimestamp (content : List Byte) (pos : Nat) : Timestamp :=
  { sec := fieldAt content pos 6, ns := fieldAt content (pos + 6) 4 }

/-- A timestamp is valid when its nanoseconds lie in 0 to 999,999,999 (R72). -/
def Timestamp.valid (t : Timestamp) : Bool := decide (t.ns < 10 ^ 9)

/-- The time of a timestamp in 1/256 ns (R72). -/
def Timestamp.value (t : Timestamp) : Int := ((t.sec * 10 ^ 9 + t.ns) * 256 : Nat)

/-- The management data of a request: the frame's data after its Ethernet header (R193). -/
def Request.data (r : Request) : List Byte :=
  let content := contentOf r.bytes
  content.drop (factsOf content).dataPos

/-- The command code of a request (R209). -/
def Request.code (r : Request) : Nat := (byteAt r.data 4).toNat

/-- The tag of a request (R209). -/
def Request.tag (r : Request) : Nat := fieldAt r.data 2 2

/-- The body length field of a request (R209). -/
def Request.bodyLen (r : Request) : Nat := fieldAt r.data 6 2

/-- The body of a request: as many bytes after the management header as its body length field says (R195). -/
def Request.body (r : Request) : List Byte := slice r.data 8 r.bodyLen

end Sys2Proof.Machine
end

