-- ==== Sys2Proof/Machine/Servo.lean ====
section
/-!
DEFINITION. Machine/Servo.lean: the servo's states, samples, lock detection and holdover (R102 to R112).
-/

namespace Sys2Proof.Machine

/-- The whole units of a quotient, truncated toward zero (00_scope.md, Rounding). -/
def truncDiv (x y : Int) : Int := x.tdiv y

/-- The LOCKED flag cleared; LOCK_LOST raised when it was set (R103, R110, R114). -/
def clearLocked (s : State) : State :=
  raiseIf s.servo.locked .lockLost { s with servo := { s.servo with locked := false } }

/-- Entry to ACQUIRE (R103): history emptied, counts 0, lock-held cleared, LOCKED cleared with LOCK_LOST; with
`fresh` the integral is set to −a × 65,536, otherwise kept. -/
def enterAcquire (fresh : Bool) (s : State) : State :=
  clearLocked
    { s with
      servo :=
        { s.servo with
          st := .acquire
          integ := if fresh then -s.servo.a * 65536 else s.servo.integ
          history := []
          lockCount := 0
          outlierCount := 0
          lockHeld := false } }

/-- Entry to FREE with a and I kept and the counts set to 0 (R102). -/
def enterFree (s : State) : State :=
  { s with servo := { s.servo with st := .free, lockCount := 0, outlierCount := 0 } }

/-- The holdover frequency: the mean of the history truncated toward zero, clamped to ± max adjust (R110). -/
def holdoverFrequency (s : State) : Int :=
  clamp s.servoCfg.maxAdjust (truncDiv s.servo.history.sum s.servo.history.length)

/-- Entry to HOLDOVER (R110). LOCKED is clear from here on, so the outlier count is 0 (R106; DEDUCED); the lock count,
which R110 does not name, is kept (DESIGN CHOICE). Both are assumption 24. -/
def enterHoldover (s : State) : State :=
  let h := holdoverFrequency s
  raise .holdoverEntered
    (clearLocked
      { s with
        servo :=
          { s.servo with
            st := .holdover
            a := h
            integ := -h * 65536
            holdStart := some s.elapsed
            outlierCount := 0
            lockHeld := false } })

/-- A change of selection told to the servo (R109). `now` is the new selection: a record or none. -/
def servoSelection (now : Option SourceName) (s : State) : State :=
  match s.servo.st, now with
  | .free, some _ => if s.clock = .normal then enterAcquire true s else s
  | .free, none => s
  | .acquire, some _ => s
  | .acquire, none => enterFree s
  | .track, some _ => enterAcquire false s
  | .track, none => if s.servo.lockHeld then enterHoldover s else enterFree s
  | .holdover, some _ => enterAcquire true s
  | .holdover, none => s

/-! ### Samples -/

/-- The proportional term P (R105). -/
def proportional (cfg : ServoCfg) (theta : Int) : Int := truncDiv (theta * cfg.kp) 256

/-- The integral after a sample (R105). -/
def integralAfter (cfg : ServoCfg) (integ theta : Int) : Int :=
  clamp (cfg.maxAdjust * 65536) (integ + theta * cfg.ki)

/-- The adjustment after a sample (R105). -/
def adjustAfter (cfg : ServoCfg) (integ theta : Int) : Int :=
  clamp cfg.maxAdjust (-(proportional cfg theta + truncDiv (integralAfter cfg integ theta) 65536))

/-- The first LOCKED after a cold reset sets the traced flag and starts the waiting cadences (R108). -/
def setTraced (s : State) : State :=
  if s.servo.traced then s else settleTick (startWaiting { s with servo := { s.servo with traced := true } })

/-- Lock detection on an applied sample (R107). -/
def lockDetect (theta : Int) (s : State) : State :=
  if s.servo.locked then
    if 4 * s.servoCfg.lockWindow < theta.natAbs then
      raise .lockLost { s with servo := { s.servo with locked := false, lockCount := 0 } }
    else s
  else if theta.natAbs ≤ s.servoCfg.lockWindow then
    if s.servo.lockCount + 1 = 8 then
      setTraced
        (raise .lockGained { s with servo := { s.servo with locked := true, lockHeld := true, lockCount := 0 } })
    else { s with servo := { s.servo with lockCount := s.servo.lockCount + 1 } }
  else { s with servo := { s.servo with lockCount := 0 } }

/-- A sample applied to the loop (R105), followed by lock detection. -/
def applySample (theta : Int) (s : State) : State :=
  lockDetect theta
    { s with
      servo :=
        { s.servo with
          a := adjustAfter s.servoCfg s.servo.integ theta
          integ := integralAfter s.servoCfg s.servo.integ theta
          history := pushNewest 16 (adjustAfter s.servoCfg s.servo.integ theta) s.servo.history
          outlierCount := 0 } }

/-- A sample in ACQUIRE (R104): a step of the exact −θ is asked for beyond the step threshold; otherwise the servo
enters TRACK and the sample is applied. -/
def acquireSample (o : Offset) (s : State) : State :=
  if s.servoCfg.stepThreshold < o.ns.natAbs then { s with steps := s.steps ++ [.by (-o.exact)] }
  else applySample o.ns { s with servo := { s.servo with st := .track } }

/-- A sample in TRACK (R105, R106). -/
def trackSample (o : Offset) (s : State) : State :=
  if s.servo.locked = true ∧ s.servoCfg.outlierGate < o.ns.natAbs then
    if s.servo.outlierCount + 1 = 4 then acquireSample o (enterAcquire false s)
    else { s with servo := { s.servo with outlierCount := s.servo.outlierCount + 1 } }
  else applySample o.ns s

/-- An offset sample handed to the servo (R102 to R106). -/
def servoSample (o : Offset) (s : State) : State :=
  match s.servo.st with
  | .free => s
  | .acquire => acquireSample o s
  | .track => trackSample o s
  | .holdover => s

/-! ### Holdover limit -/

/-- The holdover limit has passed (R111). -/
def holdoverOver (s : State) : Bool :=
  match s.servo.st, s.servo.holdStart with
  | .holdover, some start =>
    decide (s.servoCfg.holdoverLimit ≠ 0 ∧ s.servoCfg.holdoverLimit * unitsPerSecond < s.since start)
  | _, _ => false

/-- HOLDOVER_EXPIRED (R111): the servo enters FREE keeping a and I. -/
def expireHoldover (s : State) : State :=
  if holdoverOver s then raise .holdoverExpired (enterFree s) else s

/-- HOLDOVER_EXPIRED. -/
def execHoldoverExpired (s : State) : Answer := .next (expireHoldover s)

/-- What the servo does at a clock loss (R114): FREE, a and I zeroed, history emptied, counts 0, lock-held cleared,
LOCKED cleared with LOCK_LOST, the holdover start absent. -/
def servoClockLoss (s : State) : State :=
  clearLocked
    { s with
      servo :=
        { s.servo with
          st := .free, a := 0, integ := 0, lockCount := 0, outlierCount := 0, lockHeld := false, history := [],
          holdStart := none } }

end Sys2Proof.Machine
end

