-- ==== Sys2Proof/Machine/Exchange.lean ====
section
/-!
DEFINITION. Machine/Exchange.lean: the exchange unit (Chapter 5): Marks, Follows, Probes, Replies, delay and offset.
-/

namespace Sys2Proof.Machine

/-! ### Probes -/

/-- The interval between Probes in units of the elapsed counter: 2^code s (R77, table). -/
def probeInterval (code : Int) : Nat := unitsPerSecond * 2 ^ (code + 4).toNat / 16

/-- The interval in force. -/
def State.probeStep (s : State) : Elapsed := BitVec.ofNat 64 (probeInterval s.servoCfg.probeCode)

/-- The 38 bytes of a Probe's timing message (R51, R79; offsets of R209). -/
def probeMessage (s : State) : List Byte :=
  [4, 2] ++ beBytes 2 38 ++ [s.servoCfg.domain, BitVec.ofInt 8 s.servoCfg.probeCode, 0, 0] ++ beBytes 8 0 ++
    beBytes 8 s.identity.toNat ++ beBytes 2 1 ++ beBytes 2 s.exch.probeSeq.toNat ++ List.replicate 10 0

/-- The IPv4 header of a Probe, with a given checksum (R79). -/
def probeIpHeader (s : State) (ip : BitVec 32) (tos : Byte) (checksum : Nat) : List Byte :=
  [0x45, tos] ++ beBytes 2 66 ++ [0, 0, 0x40, 0, 64, 17] ++ beBytes 2 checksum ++
    beBytes 4 s.servoCfg.probeIp.toNat ++ beBytes 4 ip.toNat

/-- The frame of a Probe built from a template, padded under R13 (R79). -/
def probeFrame (s : State) (t : Template) : List Byte :=
  let outer := addrBytes t.station ++ addrBytes s.station ++ tagBytes t.tci
  match t.net with
  | .l2 et => padded (outer ++ beBytes 2 et.toNat ++ probeMessage s)
  | .udp4 ip tos port =>
    padded (outer ++ [0x08, 0x00] ++ probeIpHeader s ip tos (onesNeg (onesSum (probeIpHeader s ip tos 0))) ++
      beBytes 2 port.toNat ++ beBytes 2 port.toNat ++ beBytes 2 46 ++ [0, 0] ++ probeMessage s)

/-- A Probe is built, the sequence counter raised, and the Probe handed to Port N's timing queue (R79, R12). -/
def buildProbe (t : Template) (s : State) : State :=
  arrive .n .timing { bytes := probeFrame s t, origin := .probe s.exch.probeSeq }
    { s with exch := { s.exch with probeSeq := s.exch.probeSeq + 1 } }

/-- The next expiry of a schedule. -/
def Schedule.next? : Schedule → Option Elapsed
  | .stopped => none
  | .waiting n _ => some n
  | .timed n _ => some n

/-- The reading of a schedule's latest expiry. -/
def Schedule.latest? : Schedule → Option Elapsed
  | .stopped => none
  | .waiting _ l => some l
  | .timed _ l => some l

/-- A timed schedule whose latest expiry is the present reading (R78). -/
def scheduleFromNow (s : State) : Schedule := .timed (s.elapsed + s.probeStep) s.elapsed

/-- PROBE_SCHEDULE_EXPIRY (R78): with a template a Probe is built and the latest expiry takes the expiry's reading;
without, the schedule is WAITING; the next expiry is one interval after the expiry's reading, which the model takes to
be the present one (assumption 14). While WAITING the next expiry moves on by one interval. -/
def expireSchedule (s : State) : State :=
  match s.exch.sched with
  | .stopped => s
  | .timed n l =>
    if s.reached n then
      match s.exch.template with
      | some t => buildProbe t { s with exch := { s.exch with sched := scheduleFromNow s } }
      | none => { s with exch := { s.exch with sched := .waiting (s.elapsed + s.probeStep) l } }
    else s
  | .waiting n l =>
    if s.reached n then { s with exch := { s.exch with sched := .waiting (n + s.probeStep) l } } else s

/-- PROBE_SCHEDULE_EXPIRY. -/
def execProbeScheduleExpiry (s : State) : Answer := .next (expireSchedule s)

/-- A schedule under a rewritten interval code: its next expiry is the latest expiry plus the new interval, which is the
one in force in `s` (R78). -/
def rescheduled (s : State) : Schedule → Schedule
  | .stopped => .stopped
  | .waiting _ l => .waiting (l + s.probeStep) l
  | .timed _ l => .timed (l + s.probeStep) l

/-- The template becomes present; a WAITING schedule then builds a Probe and is timed again (R76, R78). -/
def renewTemplate (t : Template) (s : State) : State :=
  let s1 := { s with exch := { s.exch with template := some t } }
  match s.exch.sched with
  | .waiting _ _ => buildProbe t { s1 with exch := { s1.exch with sched := scheduleFromNow s } }
  | _ => s1

/-- A pending-probe record joins the list (R80): one of the same sequence number is removed, or the oldest of 4. -/
def joinProbe (p : PendingProbe) (ps : List PendingProbe) : List PendingProbe :=
  pushNewest 4 p (ps.filter fun q => q.seq != p.seq)

/-- The margin of R89 for a departing Probe: 16,777,216 units. -/
def probeMargin : Elapsed := 16777216

/-- A Probe departs (R80): its record is made unless the step boundary with its margin excludes the stamp (R89). -/
def probeDeparted (seq : BitVec 16) (st : Stamp) (s : State) : State :=
  let excluded :=
    match s.exch.boundary with
    | some b => earlierThan st.elapsed (b + probeMargin)
    | none => false
  if excluded then s
  else
    { s with
      exch := { s.exch with probes := joinProbe { seq := seq, t3 := st.time, sent := st.elapsed } s.exch.probes } }

/-- PENDING_PROBE_AGE_OUT (R81): the record is removed when the elapsed counter is more than 1 s past its send. -/
def agePendingProbe (i : Fin 4) (s : State) : State :=
  match s.exch.probes[i.val]? with
  | some p =>
    if s.pastBy p.sent unitsPerSecond then { s with exch := { s.exch with probes := s.exch.probes.eraseIdx i } }
    else s
  | none => s

/-- PENDING_PROBE_AGE_OUT. -/
def execPendingProbeAgeOut (i : Fin 4) (s : State) : Answer := .next (agePendingProbe i s)

/-! ### Marks, Follows, Replies -/

/-- The mean delay D of a window: the sum over the count, rounded toward negative infinity (R83). -/
def meanDelay (w : List Int) : Int := Int.fdiv w.sum w.length

/-- A value in 1/256 ns to whole ns: to nearest, halves away from zero (R84). -/
def roundNs (x : Int) : Int := if 0 ≤ x then (x + 128) / 256 else -((-x + 128) / 256)

/-- The offset sample of a Mark difference (R84). -/
def offsetOf (m : Int) (w : List Int) : Offset :=
  let theta := m - meanDelay w
  { exact := theta, ns := clamp 2147483647 (roundNs theta) }

/-- A new Mark difference replaces the latest; with a non-empty window the offset sample follows (R75, R84). -/
def newMarkDiff (m : Int) (seq : BitVec 16) (s : State) : State :=
  let s1 := { s with exch := { s.exch with mark := some { m := m, seq := seq } } }
  if s.exch.window = [] then s1
  else
    let o := offsetOf m s.exch.window
    servoSample o { s1 with exch := { s1.exch with lastOffset := some o } }

/-- The Mark difference m = t2 − t1 − c_m − A (R75). -/
def markDifference (t2 t1 cm asym : Int) : Int := t2 - t1 - cm - asym

/-- The probe template of a Mark's frame (R76). -/
def templateOf (c : Copy) : Template :=
  let content := contentOf c.bytes
  let f := factsOf content
  { station := f.src
    tci := f.tci
    net :=
      match c.carrier with
      | .udp4 =>
        .udp4 (bitsAt 32 content (f.dataPos + 12) 4) (byteAt content (f.dataPos + 1))
          ((f.udp.map UdpFacts.dstPort).getD 0)
      | _ => .l2 f.etherType }

/-- A stamp is excluded by the step boundary (R89). -/
def stampExcluded (s : State) (st : Stamp) : Bool :=
  match s.exch.boundary with
  | some b => earlierThan st.elapsed b
  | none => false

/-- A one-step Mark from the selected source (R73). -/
def oneStepMark (c : Copy) (h : Hdr) (s : State) : State :=
  let t1 := readTimestamp (contentOf c.bytes) (c.hdrPos + 28)
  if s.exch.mark.map MarkDiff.seq = some h.seq ∨ stampExcluded s c.stamp = true ∨ t1.valid = false then s
  else
    newMarkDiff (markDifference c.stamp.time t1.value h.corr s.portN.asym) h.seq
      (renewTemplate (templateOf c) { s with exch := { s.exch with slot := none } })

/-- The slot holds the Mark that a header names (R74, R75). -/
def slotHolds (x : Option PendingMark) (h : Hdr) : Bool :=
  match x with
  | some k => k.sender == h.sender && k.portNo == h.portNo && k.seq == h.seq
  | none => false

/-- A two-step Mark from the selected source (R74). -/
def twoStepMark (c : Copy) (h : Hdr) (s : State) : State :=
  if slotHolds s.exch.slot h = true ∨ stampExcluded s c.stamp = true then s
  else
    renewTemplate (templateOf c)
      { s with
        exch :=
          { s.exch with
            slot :=
              some { sender := h.sender, portNo := h.portNo, seq := h.seq, t2 := c.stamp.time, corr := h.corr } } }

/-- A Follow from the selected source (R75). -/
def followMatch (c : Copy) (h : Hdr) (s : State) : State :=
  match s.exch.slot with
  | none => s
  | some k =>
    if slotHolds (some k) h then
      let t1 := readTimestamp (contentOf c.bytes) (c.hdrPos + 28)
      let s1 := { s with exch := { s.exch with slot := none } }
      if t1.valid then newMarkDiff (markDifference k.t2 t1.value (k.corr + h.corr) s.portN.asym) k.seq s1 else s1
    else s

/-- The Probe difference s = t4 − t3 − c_p + A (R82). -/
def probeDifference (t4 t3 cp asym : Int) : Int := t4 - t3 - cp + asym

/-- The delay sample d = (m + s) / 2, rounded toward negative infinity (R82). -/
def delaySample (m d : Int) : Int := Int.fdiv (m + d) 2

/-- A delay sample joins the window, the oldest of 8 leaving; a negative one is discarded (R82, R83). -/
def joinWindow (d : Int) (w : List Int) : List Int := if d < 0 then w else pushNewest 8 d w

/-- A Probe Reply addressed to the part (R82). -/
def probeReply (c : Copy) (h : Hdr) (s : State) : State :=
  match s.exch.probes.find? fun p => p.seq == h.seq with
  | none => s
  | some p =>
    let t4 := readTimestamp (contentOf c.bytes) (c.hdrPos + 28)
    let s1 := { s with exch := { s.exch with probes := s.exch.probes.filter fun q => q.seq != h.seq } }
    match t4.valid, s.exch.mark with
    | true, some k =>
      { s1 with
        exch :=
          { s1.exch with
            window :=
              joinWindow (delaySample k.m (probeDifference t4.value p.t3 h.corr s.portN.asym)) s.exch.window } }
    | _, _ => s1

/-- A Mark, a Follow or a Probe Reply that passed the intake (R71): used only when it is from the selected source, and a
Reply only when it names the part and port 1 as its requester. -/
def exchangeTake (c : Copy) (h : Hdr) (s : State) : State :=
  if s.selectedName ≠ some (h.sender, h.portNo) then s
  else if h.kind = kindMark then if h.twoStep then twoStepMark c h s else oneStepMark c h s
  else if h.kind = kindFollow then followMatch c h s
  else if h.kind = kindReply then
    let content := contentOf c.bytes
    if bitsAt 64 content (c.hdrPos + 38) 8 = s.identity ∧ fieldAt content (c.hdrPos + 46) 2 = 1 then
      probeReply c h s
    else s
  else s

/-! ### Changes of source and steps -/

/-- A change of source at the exchange unit (R86): slot, Mark difference, template, probes, window and last offset gone;
the schedule restarted for the new selection or STOPPED; the sequence counter and the step boundary kept. -/
def exchangeSourceChange (now : Option SourceName) (s : State) : State :=
  { s with
    exch :=
      { Exchange.reset with
        sched := if now = none then .stopped else scheduleFromNow s
        probeSeq := s.exch.probeSeq
        boundary := s.exch.boundary } }

/-- A step notice at the exchange unit (R88). -/
def exchangeStep (s : State) : State :=
  { s with exch := { s.exch with slot := none, mark := none, probes := [], boundary := some s.elapsed } }

end Sys2Proof.Machine
end

