-- ==== Sys2Proof/Machine/Residence.lean ====
section
/-!
DEFINITION. Machine/Residence.lean: the residence corrector (Chapter 3).
-/

namespace Sys2Proof.Machine

/-- The residence of a departing frame: egress minus ingress elapsed reading, modulo 2^64 (R37). -/
def residenceOf (ingress egress : Stamp) : BitVec 64 := egress.elapsed - ingress.elapsed

/-- The correction field of a frame as held (R38). -/
def correctionField (bytes : List Byte) (hdrPos : Nat) : BitVec 64 := bitsAt 64 bytes (hdrPos + 8) 8

/-- The frame with a residence added to its correction field, modulo 2^64 (R38). -/
def withCorrection (bytes : List Byte) (hdrPos : Nat) (res : BitVec 64) : List Byte :=
  overlay bytes (hdrPos + 8) (beBytes 8 (correctionField bytes hdrPos + res).toNat)

/-- The UDP checksum updated for a change of the 16-bit words `old` of the datagram into `new` (R47): a checksum of
zero stays zero; otherwise the one's complement sum is moved by the difference of the words and complemented, and a
result of zero is sent as 0xFFFF. -/
def updateChecksum (checksum : Nat) (old new : List Byte) : Nat :=
  if checksum = 0 then 0
  else
    let r := onesNeg (onesAdd (onesAdd (onesNeg checksum) (onesSum new)) (onesNeg (onesSum old)))
    if r = 0 then 65535 else r

/-- A frame corrected in place (R38, R47, R48): a new correction field and, when the mark records a UDP header, the UDP
checksum updated over the words of the datagram that the field occupies. -/
def correctFrame (bytes : List Byte) (mark : CorrMark) (res : BitVec 64) : List Byte :=
  let changed := withCorrection bytes mark.hdrPos res
  match mark.udpPos with
  | none => changed
  | some u =>
    let rel := mark.hdrPos + 8 - u
    let off := u + rel / 2 * 2
    let len := (rel % 2 + 9) / 2 * 2
    overlay changed (u + 6)
      (beBytes 2 (updateChecksum (fieldAt bytes (u + 6) 2) (slice bytes off len) (slice changed off len)))

/-- Two residence keys are equal: sender identity, port number, sequence number and domain (R41). -/
def ResRec.sameKey (a b : ResRec) : Bool :=
  a.sender == b.sender && a.portNo == b.portNo && a.seq == b.seq && a.domain == b.domain

/-- A record joins the residence table: one of the same key is removed, or the oldest of a full table (R42). -/
def joinResidence (r : ResRec) (table : List ResRec) : List ResRec :=
  pushNewest 8 r (table.filter fun x => !x.sameKey r)

/-- The record a departing message names: its header's key, the port it departs by, its own residence, and the elapsed
reading of its egress stamp (R41). -/
def residenceRecord (h : Hdr) (p : Port) (ingress egress : Stamp) : ResRec :=
  { sender := h.sender, portNo := h.portNo, seq := h.seq, domain := h.domain, dir := p,
    residence := residenceOf ingress egress, created := egress.elapsed }

/-- The consultation at a departure (R36): the bytes to be sent and the state after. -/
def consult (p : Port) (bytes : List Byte) (ingress egress : Stamp) (mark : CorrMark) (s : State) :
    List Byte × State :=
  let h := readHdr bytes mark.hdrPos
  let own := residenceRecord h p ingress egress
  if h.len < 38 then (bytes, s)
  else if h.kind = kindMark ∧ h.twoStep then (bytes, { s with residence := joinResidence own s.residence })
  else if h.kind = kindMark ∨ h.kind = kindProbe then (correctFrame bytes mark own.residence, s)
  else if h.kind = kindFollow then
    match s.residence.find? fun x => x.sameKey own && x.dir == p with
    | some x =>
      (correctFrame bytes mark x.residence,
        { s with residence := s.residence.filter fun y => !(y.sameKey own && y.dir == p) })
    | none => (bytes, raise .residenceMiss s)
  else (bytes, s)

/-- RESIDENCE_RECORD_AGE_OUT (R45): the record is removed when the elapsed counter is more than 1 s past its created
reading. -/
def ageResidence (i : Fin 8) (s : State) : State :=
  match s.residence[i.val]? with
  | some r => if s.pastBy r.created unitsPerSecond then { s with residence := s.residence.eraseIdx i } else s
  | none => s

/-- RESIDENCE_RECORD_AGE_OUT. -/
def execResidenceRecordAgeOut (i : Fin 8) (s : State) : Answer := .next (ageResidence i s)

end Sys2Proof.Machine
end

