-- ==== Sys2Proof/Machine/Ports.lean ====
section
/-!
DEFINITION. Machine/Ports.lean: link state, reception and transmission (Chapter 1).
-/

namespace Sys2Proof.Machine

/-! ### Link state -/

/-- LINK_UP (R1): a DOWN port goes UP with empty queues and a free transmitter; an UP port stays as it is. -/
def linkUp (p : Port) (s : State) : State :=
  if (s.port p).link = .up then s
  else s.setPort p { s.port p with link := .up, timingQ := [], ordinaryQ := [], tx := none, receiving := none }

/-- LINK_UP. -/
def execLinkUp (p : Port) (s : State) : Answer := .next (linkUp p s)

/-- The entry is the response to a RESTART (R198). -/
def EgressEntry.ofRestart (e : EgressEntry) : Bool := decide (e.origin = .response true)

/-- The warm reset becomes due (R198). -/
def makeResetDue (c : Bool) (s : State) : State := if c then { s with restart := .due } else s

/-- The transmission of port `p` has ended (R9, R15); its departures stand. -/
def Departure.endSending (p : Port) (d : Departure) : Departure :=
  { d with sending := d.sending && decide (d.port ≠ p) }

/-- The state with the transmission of port `p` ended. -/
def State.endSending (s : State) (p : Port) : State :=
  { s.setPort p { s.port p with tx := none } with departing := s.departing.map (Departure.endSending p) }

/-- LINK_DOWN (R1, R15): both queues emptied without an event, a frame being received or sent cut short, while
departures and wholly received frames stand; a RESTART response in an emptied queue makes the warm reset due (R198).
-/
def linkDown (p : Port) (s : State) : State :=
  let x := s.port p
  if x.link = .down then s
  else
    makeResetDue (x.timingQ.any EgressEntry.ofRestart || x.ordinaryQ.any EgressEntry.ofRestart)
      ((s.endSending p).setPort p
        { x with link := .down, timingQ := [], ordinaryQ := [], tx := none, receiving := none })

/-- LINK_DOWN. -/
def execLinkDown (p : Port) (s : State) : Answer := .next (linkDown p s)

/-! ### Reception -/

/-- A received frame is accepted (R2): 64 to 2,000 bytes, a correct FCS, not cut short. -/
def frameAccepted (bytes : List Byte) (cut : Bool) : Bool :=
  decide (64 ≤ bytes.length) && decide (bytes.length ≤ 2000) && fcsCorrect bytes && !cut

/-- FRAME_RECEIVED (R2, R3, R4): the end of a frame at an UP port. A port that holds an ingress stamp was receiving
the frame at the latest tick: accepted, its record is handed to the classifier with that stamp. Otherwise the frame
began after the latest tick and takes its stamp at the next (R3): accepted, it waits for that tick with the ingress
latency in force (assumption 14). A frame that is not accepted is discarded with its stamp. -/
def frameReceived (p : Port) (bytes : List Byte) (cut : Bool) (s : State) : State :=
  let x := s.port p
  match x.link, x.receiving with
  | .up, some st =>
    if frameAccepted bytes cut then
      s.setPort p { x with receiving := none, records := x.records ++ [{ bytes := bytes, stamp := st }] }
    else s.setPort p { x with receiving := none }
  | .up, none =>
    if frameAccepted bytes cut then
      s.setPort p { x with unstamped := x.unstamped ++ [{ bytes := bytes, latency := x.ingressLat }] }
    else s
  | .down, _ => s

/-- FRAME_RECEIVED. -/
def execFrameReceived (p : Port) (bytes : List Byte) (cut : Bool) (s : State) : Answer :=
  .next (frameReceived p bytes cut s)

/-! ### Transmission -/

/-- The bytes of a frame as sent: its content and the FCS over it (R11). -/
def sentBytes (content : List Byte) : List Byte := content ++ fcsOf content

/-- The entry carries a correction mark, so the corrector gives the bytes to be sent (R10, R11). -/
def EgressEntry.isMarked (e : EgressEntry) : Bool :=
  match e.origin with
  | .forwarded _ (some _) => true
  | _ => false

/-- The entry's egress stamp goes to a block: to the corrector or to the exchange unit (R10, table). -/
def EgressEntry.takesStamp (e : EgressEntry) : Bool :=
  match e.origin with
  | .forwarded _ (some _) => true
  | .probe _ => true
  | _ => false

/-- An entry that has left its queue departs (R7, R10): it is the port's frame in transmission, and its egress stamp,
when a block takes it, is taken with the egress latency in force and read at the next tick. The departure of a RESTART
response makes the warm reset due (R198). -/
def depart (p : Port) (e : EgressEntry) (s : State) : State :=
  let x := s.port p
  let sent :=
    s.setPort p
      { x with tx := some { wire := if e.isMarked then none else some (sentBytes e.bytes), origin := e.origin } }
  makeResetDue e.ofRestart
    (if e.takesStamp then
      { sent with departing := s.departing ++ [{ port := p, entry := e, latency := x.egressLat, sending := true }] }
    else sent)

/-- The port of a departure with the corrector's answer: the bytes of its frame, when that is still in transmission, and
their FCS (R11). -/
def PortState.answered (x : PortState) (sending : Bool) (bytes : List Byte) : PortState :=
  if sending then { x with tx := x.tx.map fun f => { f with wire := some (sentBytes bytes) } } else x

/-- The egress stamp of a departure, read from the counters as they stand, is handed over (R10): to the corrector, whose
answer gives the bytes of a frame still in transmission (R11), or to the exchange unit. -/
def handOver (d : Departure) (s : State) : State :=
  let st := egressStamp s d.latency
  match d.entry.origin with
  | .forwarded ingress (some mark) =>
    let r := consult d.port d.entry.bytes ingress st mark s
    r.2.setPort d.port ((r.2.port d.port).answered d.sending r.1)
  | .probe seq => probeDeparted seq st s
  | _ => s

/-- The departures that `now` names are handed over in the order of their transmissions, whichever port they left by
(R10, R46); the others go on waiting. -/
def handOverThose (now : Departure → Bool) (s : State) : State :=
  (s.departing.filter now).foldl (fun t d => handOver d t)
    { s with departing := s.departing.filter fun d => !now d }

/-- The corrector's answer to a departure rests on the departure's own egress stamp: a one-step Mark or a Probe with a
length field of at least 38 bytes (R36, R39). -/
def Departure.needsOwnStamp (d : Departure) : Bool :=
  match d.entry.origin with
  | .forwarded _ (some mark) =>
    let h := readHdr d.entry.bytes mark.hdrPos
    decide (38 ≤ h.len) && (decide (h.kind = kindMark) && !h.twoStep || decide (h.kind = kindProbe))
  | _ => false

/-- TRANSMIT_START (R9, R10): a free transmitter of an UP port takes the oldest timing-class frame, otherwise the oldest
ordinary frame. The egress stamp of R10 is read at the next tick (assumption 14). -/
def transmitStart (p : Port) (s : State) : State :=
  let x := s.port p
  if x.link = .up ∧ x.tx = none then
    match x.timingQ, x.ordinaryQ with
    | e :: rest, _ => depart p e (s.setPort p { x with timingQ := rest })
    | [], e :: rest => depart p e (s.setPort p { x with ordinaryQ := rest })
    | [], [] => s
  else s

/-- TRANSMIT_START. -/
def execTransmitStart (p : Port) (s : State) : Answer := .next (transmitStart p s)

/-- TRANSMIT_END (R9): the transmitter is free. The last byte of a frame whose bytes the corrector has yet to give has
not been sent, since its answer comes before the first changed byte is sent (R11, R48): there is no such end before the
next tick, and the command changes nothing (DESIGN CHOICE, assumption 14). -/
def transmitEnd (p : Port) (s : State) : State :=
  match (s.port p).tx with
  | some f => if f.wire.isNone then s else s.endSending p
  | none => s

/-- TRANSMIT_END. -/
def execTransmitEnd (p : Port) (s : State) : Answer := .next (transmitEnd p s)

end Sys2Proof.Machine
end

