-- ==== Sys2Proof/Machine/Sources.lean ====
section
/-!
DEFINITION. Machine/Sources.lean: the source table (Chapter 4) and the intake of the timing engine (R53).
-/

namespace Sys2Proof.Machine

/-- The fields a record is ranked by, in the order of R63, each as a number of which the lower ranks better. -/
def SourceRec.rankKey (r : SourceRec) : List Nat :=
  [r.pref1.toNat, r.cls.toNat, r.accuracy.toNat, r.variance.toNat, r.pref2.toNat, r.tsIdent.toNat, r.hops.toNat,
    r.sender.toNat, r.portNo.toNat]

/-- One list of numbers is lower than another at the first place where they differ. -/
def lexLess : List Nat → List Nat → Bool
  | a :: as, b :: bs => decide (a < b) || (decide (a = b) && lexLess as bs)
  | _, _ => false

/-- One record ranks better than another (R63). -/
def SourceRec.better (a b : SourceRec) : Bool := lexLess a.rankKey b.rankKey

/-- The better of two records. -/
def betterOf (a b : SourceRec) : SourceRec := if b.better a then b else a

/-- The record that ranks better than every other of a list, if there is one. -/
def bestOf : List SourceRec → Option SourceRec
  | [] => none
  | r :: rs => some (rs.foldl betterOf r)

/-- The record that every other of a list ranks better than, if there is one (R63). -/
def worstOf : List SourceRec → Option SourceRec
  | [] => none
  | r :: rs => some (rs.foldl (fun a b => if a.better b then b else a) r)

/-- The records of the table. -/
def State.records (s : State) : List SourceRec := s.sources.toList.filterMap id

/-- A record is of the sender with this name. -/
def SourceRec.named (r : SourceRec) (n : SourceName) : Bool := r.sender == n.1 && r.portNo == n.2

/-- The slot that holds the record of a sender. -/
def State.slotOf (s : State) (n : SourceName) : Option (Fin 8) :=
  allSlots.find? fun i =>
    match s.sources[i] with
    | some r => r.named n
    | none => false

/-- The lowest-numbered empty slot (R59). -/
def State.emptySlot (s : State) : Option (Fin 8) := allSlots.find? fun i => s.sources[i].isNone

/-- The state with a slot of the source table replaced. -/
def State.setSource (s : State) (i : Fin 8) (r : Option SourceRec) : State :=
  { s with sources := s.sources.set i r }

/-- The best ELIGIBLE record (R64). -/
def State.bestEligible (s : State) : Option SourceRec :=
  bestOf (s.records.filter fun r => decide (r.st = .eligible))

/-- The table with the selected flag set on the record of one name alone (R64). -/
def markSelected (n : Option SourceName) (r : Option SourceRec) : Option SourceRec :=
  r.map fun x => { x with selected := n == some (x.sender, x.portNo) && decide (x.st = .eligible) }

/-- The source table with a function applied to every slot. -/
def mapSources (f : Option SourceRec → Option SourceRec) (v : Vector (Option SourceRec) 8) :
    Vector (Option SourceRec) 8 :=
  #v[f v[0], f v[1], f v[2], f v[3], f v[4], f v[5], f v[6], f v[7]]

/-- The notices of a change of selection (R65), in the order SOURCE_CHANGED, exchange unit, servo (assumption 8). -/
def tellSelection (now : Option SourceName) (s : State) : State :=
  servoSelection now (exchangeSourceChange now (raise .sourceChanged s))

/-- Selection is rerun (R64), `old` being the selection before the event that causes it; a different outcome is told as
part of the same event (R65). -/
def rerunSelection (old : Option SourceName) (s : State) : State :=
  let now := s.bestEligible.map fun r => (r.sender, r.portNo)
  let s1 := { s with sources := mapSources (markSelected now) s.sources }
  if now = old then s1 else tellSelection now s1

/-! ### Beacons -/

/-- The record a Beacon makes of its sender (R59; body offsets of R209). -/
def recordOfBeacon (content : List Byte) (pos : Nat) (h : Hdr) (st : Stamp) : SourceRec :=
  { sender := h.sender
    portNo := h.portNo
    tsIdent := bitsAt 64 content (pos + 28) 8
    pref1 := byteAt content (pos + 36)
    cls := byteAt content (pos + 37)
    accuracy := byteAt content (pos + 38)
    variance := bitsAt 16 content (pos + 39) 2
    pref2 := byteAt content (pos + 41)
    hops := bitsAt 16 content (pos + 42) 2
    civil := signedOf 16 (fieldAt content (pos + 44) 2)
    civilValid := h.civilValid
    interval := h.interval
    lastSeq := h.seq
    count := 1
    lastHeard := st.elapsed
    st := .qualifying
    selected := false }

/-- The record after an accepted Beacon `b` of its sender (R58): the Beacon's values; the count raised, held at 65,535;
QUALIFYING becomes ELIGIBLE at a count of 2. -/
def refreshed (old b : SourceRec) : SourceRec :=
  { b with
    count := min 65535 (old.count + 1)
    st := if 2 ≤ min 65535 (old.count + 1) then .eligible else old.st
    selected := old.selected }

/-- The fields whose change reruns selection (R58): the seven ranking fields, the civil offset and its valid flag. -/
def SourceRec.rerunKey (r : SourceRec) : List Nat × Int × Bool := (r.rankKey, r.civil, r.civilValid)

/-- A Beacon reaches the source table (R57 to R60). -/
def takeBeacon (content : List Byte) (pos : Nat) (h : Hdr) (st : Stamp) (s : State) : State :=
  let b := recordOfBeacon content pos h st
  let old := s.selectedName
  if 255 ≤ b.hops.toNat ∨ h.sender = s.identity then s
  else
    match s.slotOf (h.sender, h.portNo) with
    | some i =>
      match s.sources[i] with
      | some r =>
        if r.lastSeq = h.seq then s
        else
          let r' := refreshed r b
          let s1 := s.setSource i (some r')
          if (r.st = .qualifying ∧ r'.st = .eligible) ∨ r.rerunKey ≠ r'.rerunKey then rerunSelection old s1 else s1
      | none => s
    | none =>
      match s.emptySlot with
      | some i => s.setSource i (some b)
      | none =>
        match worstOf (s.records.filter fun r => !r.selected) with
        | some w =>
          match s.slotOf (w.sender, w.portNo) with
          | some i => if b.better w then rerunSelection old (s.setSource i (some b)) else s
          | none => s
        | none => s

/-! ### Timeouts -/

/-- The timeout of a record in elapsed units: multiple × 2^c s, the interval code c clamped to −7 to +7 (R61). -/
def timeoutUnits (multiple : Nat) (interval : Int) : Nat :=
  multiple * (unitsPerSecond * 2 ^ (clamp 7 interval + 7).toNat / 128)

/-- A record has timed out (R61). -/
def timedOut (s : State) (r : SourceRec) : Bool :=
  decide (timeoutUnits s.servoCfg.multiple r.interval < s.since r.lastHeard)

/-- SOURCE_TIMEOUT (R61): the record is removed, and selection rerun when it was selected. -/
def sourceTimeout (i : Fin 8) (s : State) : State :=
  match s.sources[i] with
  | some r =>
    if timedOut s r then
      let s1 := s.setSource i none
      if r.selected then rerunSelection s.selectedName s1 else s1
    else s
  | none => s

/-- SOURCE_TIMEOUT. -/
def execSourceTimeout (i : Fin 8) (s : State) : Answer := .next (sourceTimeout i s)

/-! ### Intake -/

/-- The copy passes the checks of R53. -/
def intakeOk (s : State) (h : Hdr) : Bool :=
  match minLength h.kind with
  | some m => decide (m ≤ h.len) && h.domain == s.servoCfg.domain && decide (h.kind ≠ kindProbe)
  | none => false

/-- TIMING_COPY_INTAKE (R53): the oldest copy is taken, checked, and given to the source table or the exchange unit. -/
def intakeNext (s : State) : State :=
  match s.copies with
  | [] => s
  | c :: rest =>
    let s1 := { s with copies := rest }
    let content := contentOf c.bytes
    let h := readHdr content c.hdrPos
    if intakeOk s h then
      if h.kind = kindBeacon then takeBeacon content c.hdrPos h c.stamp s1 else exchangeTake c h s1
    else s1

/-- TIMING_COPY_INTAKE. -/
def execTimingCopyIntake (s : State) : Answer := .next (intakeNext s)

end Sys2Proof.Machine
end

