-- ==== Sys2Proof/Machine/Clock.lean ====
section
/-!
DEFINITION. Machine/Clock.lean: the ticks (R92, R95), the step notices (R96) and the clock monitor (R113 to R116).
-/

namespace Sys2Proof.Machine

/-! ### What one tick does -/

/-- The counters advance by an amount, and the value before is kept as the value of the tick before (R92, R93, R125). -/
def tickCounters (amount : Nat) (s : State) : State :=
  { advanceCounters amount s with prevTime := s.time.total, prevTime2 := s.prevTime }

/-- The cadences at a tick: the mark of R128 is cleared. -/
def tickCads (s : State) : State := { s with cad := mapCad CadRun.tick s.cad }

/-- R137 applied to every cadence. -/
def limitPulses (s : State) : State :=
  { s with cad := mapCad (fun x => { x with pulse := limitPulse s x.pulse }) s.cad }

/-- The serializers count the tick (R168), the capture lines sample it (R178), and a switch already due has its tick
(R151). -/
def tickUnits (inp : TickIn) (s : State) : State :=
  { s with
    ser := #v[s.ser[0].countTick, s.ser[1].countTick]
    cap := mapCap (fun n x => x.tick s.capRec[n] inp.cap[n]) s.cap
    switch := s.switch.map fun q => { q with dueTick := q.due } }

/-- TCLK must have been present for 10 ms, timed on the backup oscillator at 8 ns a tick (R115; assumption 13). -/
def restoreTicks : Nat := 1250000

/-- The restore qualification counts a backup tick (R115). -/
def ClockState.tick : ClockState → ClockState
  | .backup (some n) => .backup (some (min restoreTicks (n + 1)))
  | c => c

/-- The ingress stamps that a port forms at a tick (R3): for the accepted frames that began and ended since the tick
before, whose records go to the classifier in their order, and for the frame it is receiving whose first byte has passed
since then. A port that is DOWN receives nothing (R1). -/
def takeIngress (p : Port) (start : Bool) (s : State) : State :=
  let x := s.port p
  s.setPort p
    { x with
      records := x.records ++ x.unstamped.map fun a => { bytes := a.bytes, stamp := ingressStamp s a.latency }
      unstamped := []
      receiving := if start = true ∧ x.link = .up then some (ingressStamp s x.ingressLat) else x.receiving }

/-- The egress stamps of the departures since the tick before are handed over in their order (R10). -/
def takeEgress (s : State) : State := handOverThose (fun _ => true) s

/-- The outputs of a tick whose events were not all taken, as far as they were (assumption 6). -/
def closeTick (s : State) : State :=
  match s.view with
  | some v => showOutputs v s
  | none => s

/-- The outputs at the end of a tick: R137 is applied to the counter's value of this tick (R92). The events that the
tick reaches are commands of their own: the serializers' outputs and the pins take the levels that stand after them once
all are taken, which is at once when there are none (R159; DESIGN CHOICE, assumption 6). -/
def tickOutputs (s : State) : State :=
  let t := limitPulses s
  settleTick { closeTick t with view := some t.viewNow }

/-- The last part of a tick, after any step: the stamps, then the outputs (R3, R10, R159). A Follow whose egress stamp
is read at a tick is looked up within it. So at the first tick at which the age of its Mark's record exceeds 1 s the
lookup comes before the aging, where R45 lets either be first (DESIGN CHOICE, assumption 14). -/
def tickEnd (inp : TickIn) (s : State) : State :=
  tickOutputs (takeEgress (takeIngress .d inp.rxD (takeIngress .n inp.rxN s)))

/-! ### Steps -/

/-- A step that is made (R95, R96): the counter takes its value, TIME_STEPPED is raised, and the notices are given to
the exchange unit, the cadence engine, the capture lines, the serializers and the bank switch. The value taken for the
tick before becomes the stepped value (R125). -/
def makeStep (t : TimeVal) (s : State) : State :=
  let s1 := raise .timeStepped { s with time := t, prevTime := t.total, prevTime2 := t.total }
  let s2 := exchangeStep s1
  let s3 := allCad.foldl (fun u n => stepCad n u) s2
  let s4 :=
    { s3 with
      cap := mapCap (fun _ x => x.stepNotice) s3.cap
      ser := #v[{ s3.ser[0] with stepSeen := true }, { s3.ser[1] with stepSeen := true }] }
  reevaluateSwitch s2 s4

/-- A requested step at its tick: made, or not made when its result is out of range (R95). -/
def takeStep (r : StepReq) (s : State) : State :=
  match r.result s.time with
  | some t => makeStep t s
  | none => s

/-- Every requested step, in the order of the requests. -/
def takeSteps (s : State) : State := s.steps.foldl (fun t r => takeStep r t) { s with steps := [] }

/-- One tick of the clock that advances the counters (R92): the advance, what each unit does at a tick, the steps that
were asked for since the tick before, and then stamps and outputs. -/
def tickAll (inp : TickIn) (s : State) : State :=
  let s1 := tickUnits inp (tickCads (tickCounters s.increment s))
  tickEnd inp (takeSteps { s1 with clock := s1.clock.tick })

/-- TICK. A tick with a step asked for is its step tick (R95; assumption 5). -/
def execTick (inp : TickIn) (s : State) : Answer := .next (tickAll inp s)

/-- STEP_TICK (R95): the tick at which a requested step takes effect; without a request there is no such tick. -/
def stepTick (inp : TickIn) (s : State) : State := if s.steps = [] then s else tickAll inp s

/-- STEP_TICK. -/
def execStepTick (inp : TickIn) (s : State) : Answer := .next (stepTick inp s)

/-! ### The clock monitor -/

/-- CLOCK_LOSS (R113, R114, R136): the monitor enters BACKUP; the counters advance once by `n` increments, and that is
one tick for the units, after which the cadences, in rising number (DESIGN CHOICE, assumption 8), and then a waiting
switch act as R136, R151 and R154 give; the servo enters FREE; CLOCK_LOSS is raised. -/
def clockLoss (n : Nat) (inp : TickIn) (s : State) : State :=
  if s.clock ≠ .normal then s
  else
    let s1 := tickUnits inp (tickCads (tickCounters (n * s.increment) { s with clock := .backup none }))
    let s2 := { s1 with prevTime := s1.time.total, prevTime2 := s1.time.total }
    let s3 := allCad.foldl (fun u c => catchUpCad c u) s2
    let s4 := reevaluateSwitch s2 s3
    tickEnd inp (raise .clockLoss (servoClockLoss s4))

/-- CLOCK_LOSS. -/
def execClockLoss (n : Nat) (inp : TickIn) (s : State) : Answer := .next (clockLoss n inp s)

/-- CLOCK_RESTORED (R115): after the restore qualification the monitor is NORMAL, and with a record selected the servo
enters ACQUIRE. -/
def clockRestored (s : State) : State :=
  match s.clock with
  | .backup (some n) =>
    if restoreTicks ≤ n then
      let s1 := raise .clockRestored { s with clock := .normal }
      if s.selectedName.isSome then enterAcquire true s1 else s1
    else s
  | _ => s

/-- CLOCK_RESTORED. -/
def execClockRestored (s : State) : Answer := .next (clockRestored s)

/-- RESTORE_QUALIFICATION_START (R115): in BACKUP, the first TCLK edge. -/
def qualificationStart (s : State) : State :=
  match s.clock with
  | .backup none => { s with clock := .backup (some 0) }
  | _ => s

/-- RESTORE_QUALIFICATION_START. -/
def execRestoreQualificationStart (s : State) : Answer := .next (qualificationStart s)

/-- RESTORE_QUALIFICATION_RESTART (R115): a gap of more than 1 µs in TCLK; the qualification counts from the edge that
ends it (assumption 13). -/
def qualificationRestart (s : State) : State :=
  match s.clock with
  | .backup (some _) => { s with clock := .backup (some 0) }
  | _ => s

/-- RESTORE_QUALIFICATION_RESTART. -/
def execRestoreQualificationRestart (s : State) : Answer := .next (qualificationRestart s)

end Sys2Proof.Machine
end

