-- ==== Sys2Proof/Machine/Tables.lean ====
section
/-!
DEFINITION. Machine/Tables.lean: the tables a manager reads and writes (11.4): the encodings of their entries (R209),
the check and the effect of writing each (R200), and what reading each returns (R202).
-/

namespace Sys2Proof.Machine

/-- Status codes (R209). -/
inductive Status where
  | ok
  | clamped
  | badCommand
  | badTable
  | badIndex
  | badValue
  | notPermitted
  | wrongState
  | switchPending
  | tooLate
  deriving DecidableEq, Repr

/-- The byte of a status code. -/
def Status.code : Status → Nat
  | .ok => 0
  | .clamped => 1
  | .badCommand => 2
  | .badTable => 3
  | .badIndex => 4
  | .badValue => 5
  | .notPermitted => 6
  | .wrongState => 7
  | .switchPending => 8
  | .tooLate => 9

/-- The tables (11.4), those of a bank with its number. -/
inductive TableId where
  | classify
  | port
  | servo
  | civil
  | cadence (b : Fin 4)
  | lines (b : Fin 4)
  | labels (b : Fin 4)
  | capture
  | notify
  | managers
  | sources
  deriving DecidableEq, Repr

/-- An index as a bounded number. -/
def finOf (n i : Nat) : Option (Fin n) := if h : i < n then some ⟨i, h⟩ else none

/-- The table an identifier and a bank number name (R199): for CADENCE, LINES and LABELS a bank outside 0 to 3 names
none; for the others the bank is ignored. -/
def tableOf (ident bank : Nat) : Option TableId :=
  match ident with
  | 1 => some .classify
  | 2 => some .port
  | 3 => some .servo
  | 4 => some .civil
  | 5 => (finOf 4 bank).map .cadence
  | 6 => (finOf 4 bank).map .lines
  | 7 => (finOf 4 bank).map .labels
  | 8 => some .capture
  | 9 => some .notify
  | 10 => some .managers
  | 11 => some .sources
  | _ => none

/-- The number of entries of a table (11.4). -/
def TableId.entries : TableId → Nat
  | .classify => 32
  | .port => 2
  | .servo => 1
  | .civil => 1
  | .cadence _ => 8
  | .lines _ => 12
  | .labels _ => 2
  | .capture => 4
  | .notify => 4
  | .managers => 4
  | .sources => 8

/-- The entry size of a table in bytes (R209). -/
def TableId.size : TableId → Nat
  | .classify => 25
  | .port => 13
  | .servo => 29
  | .civil => 2
  | .cadence _ => 62
  | .lines _ => 4
  | .labels _ => 15
  | .capture => 16
  | .notify => 14
  | .managers => 6
  | .sources => 41

/-- What writing one entry answers: applied, with a clamped value or not, or refused. -/
inductive EntryResult where
  | applied (clamped : Bool) (s : State)
  | refused (st : Status)

/-! ### CLASSIFY -/

/-- A carrier byte (R209). -/
def carrierOf (n : Nat) : Option Carrier :=
  match n with
  | 0 => some .none
  | 1 => some .l2
  | 2 => some .udp4
  | _ => none

/-- The byte of a carrier. -/
def Carrier.code : Carrier → Nat
  | .none => 0
  | .l2 => 1
  | .udp4 => 2

/-- An action byte (R209). -/
def actionOf (n : Nat) : Option Action :=
  match n with
  | 0 => some .forward
  | 1 => some .forwardCorrect
  | 2 => some .copyCorrect
  | 3 => some .takeTiming
  | 4 => some .drop
  | _ => none

/-- The byte of an action. -/
def Action.code : Action → Nat
  | .forward => 0
  | .forwardCorrect => 1
  | .copyCorrect => 2
  | .takeTiming => 3
  | .drop => 4

/-- A class byte (R209). -/
def classOf (n : Nat) : Option TClass :=
  match n with
  | 0 => some .ordinary
  | 1 => some .timing
  | _ => none

/-- The byte of a class. -/
def TClass.code : TClass → Nat
  | .ordinary => 0
  | .timing => 1

/-- A VLAN field with its presence bit: absent, untagged, or an id of 0 to 4,095; no other value (R32). -/
def vlanOf (present : Bool) (n : Nat) : Option (Option VlanMatch) :=
  if present = false then some none
  else if n = 65535 then some (some .untagged)
  else if n < 4096 then some (some (.id (BitVec.ofNat 12 n)))
  else none

/-- The conditions under which R32 refuses an entry, beyond fields that hold no legal value. -/
def ClassEntry.legal (e : ClassEntry) : Bool :=
  (e.portN || e.portD) &&
  !((e.action == .forwardCorrect || e.action == .copyCorrect || e.action == .takeTiming) && e.carrier == .none) &&
  !((e.kinds.isSome || e.domain.isSome) && e.carrier == .none) &&
  !(e.carrier == .l2 && e.udpPort.isSome) &&
  !((e.udpPort.isSome || e.carrier == .udp4) && e.etherType.isSome && e.etherType != some 0x0800#16)

/-- A value, present or absent. -/
def present {α : Type} (c : Bool) (x : α) : Option α := if c then some x else none

/-- A written classification entry (R32, R209): none when it is refused; with valid clear, the empty entry. -/
def decodeClass (b : List Byte) : Option ClassEntry :=
  let control := byteAt b 0
  let pres := byteAt b 1
  if control.getLsbD 0 = false then some ClassEntry.empty
  else if pres.getLsbD 4 = true ∧ 32 ≤ (byteAt b 21).toNat then none
  else if pres.getLsbD 5 = true ∧ 128 ≤ (byteAt b 22).toNat then none
  else
    match vlanOf (pres.getLsbD 1) (fieldAt b 14 2), carrierOf (byteAt b 20).toNat, actionOf (byteAt b 23).toNat,
      classOf (byteAt b 24).toNat with
    | some v, some c, some a, some k =>
      let e : ClassEntry :=
        { valid := true
          portN := control.getLsbD 1
          portD := control.getLsbD 2
          dest := present (pres.getLsbD 0) (bitsAt 48 b 2 6, bitsAt 48 b 8 6)
          vlan := v
          etherType := present (pres.getLsbD 2) (bitsAt 16 b 16 2)
          udpPort := present (pres.getLsbD 3) (bitsAt 16 b 18 2)
          carrier := c
          kinds := present (pres.getLsbD 4) (bitsAt 5 b 21 1)
          domain := present (pres.getLsbD 5) (byteAt b 22)
          action := a
          cls := k }
      if e.legal then some e else none
    | _, _, _, _ => none

/-- The number that a list of flags spells, the first the least significant bit. -/
def bitsByte : List Bool → Nat
  | [] => 0
  | b :: bs => (if b then 1 else 0) + 2 * bitsByte bs

/-- The VLAN field's number (0 when absent, R209). -/
def vlanNumber : Option VlanMatch → Nat
  | none => 0
  | some .untagged => 65535
  | some (.id v) => v.toNat

/-- A classification entry as it reads back (R34, R209): bytes of absent fields are zero. -/
def encodeClass (e : ClassEntry) : List Byte :=
  [BitVec.ofNat 8 (bitsByte [e.valid, e.portN, e.portD]),
    BitVec.ofNat 8 (bitsByte [e.dest.isSome, e.vlan.isSome, e.etherType.isSome, e.udpPort.isSome, e.kinds.isSome,
      e.domain.isSome])] ++
  beBytes 6 ((e.dest.map fun p => p.1.toNat).getD 0) ++ beBytes 6 ((e.dest.map fun p => p.2.toNat).getD 0) ++
  beBytes 2 (vlanNumber e.vlan) ++ beBytes 2 ((e.etherType.map BitVec.toNat).getD 0) ++
  beBytes 2 ((e.udpPort.map BitVec.toNat).getD 0) ++
  [BitVec.ofNat 8 e.carrier.code, BitVec.ofNat 8 ((e.kinds.map BitVec.toNat).getD 0), e.domain.getD 0,
    BitVec.ofNat 8 e.action.code, BitVec.ofNat 8 e.cls.code]

/-- Writing CLASSIFY entry `i` (R32, R33). -/
def writeClassify (i : Nat) (b : List Byte) (s : State) : EntryResult :=
  match finOf 32 i, decodeClass b with
  | some n, some e => .applied false { s with classify := s.classify.set n e }
  | _, _ => .refused .badValue

/-! ### PORT -/

/-- The port of a PORT record: 0 is N and 1 is D (R5). -/
def portOf (i : Nat) : Port := if i = 0 then .n else .d

/-- The greatest latency (R5). -/
def maxLatency : Nat := 16777215

/-- Writing PORT record `i` (R5): the latencies and the asymmetry are checked and replaced; the link state is kept. -/
def writePort (i : Nat) (b : List Byte) (s : State) : EntryResult :=
  let inL := fieldAt b 0 4
  let outL := fieldAt b 4 4
  let asym := signedOf 32 (fieldAt b 8 4)
  if maxLatency < inL ∨ maxLatency < outL ∨ (portOf i = .d ∧ asym ≠ 0) then .refused .badValue
  else
    .applied false
      (s.setPort (portOf i) { s.port (portOf i) with ingressLat := inL, egressLat := outL, asym := asym })

/-- The byte of a link state. -/
def Link.code : Link → Byte
  | .down => 0
  | .up => 1

/-- A PORT record as it reads back (R6). -/
def readPort (i : Nat) (s : State) : List Byte :=
  let x := s.port (portOf i)
  beBytes 4 x.ingressLat ++ beBytes 4 x.egressLat ++ beBytes 4 (unsignedOf 32 x.asym) ++ [x.link.code]

/-! ### SERVO and CIVIL -/

/-- The greatest max adjust (R101). -/
def maxAdjustLimit : Nat := 100000

/-- A written SERVO record (R54, R77, R101) with max adjust clamped to 100,000: none when a field is out of range. -/
def decodeServo (b : List Byte) : Option ServoCfg :=
  let code := signedOf 8 (byteAt b 2).toNat
  let adj := fieldAt b 7 4
  let thr := fieldAt b 15 4
  let gate := fieldAt b 19 4
  let win := fieldAt b 23 4
  if (byteAt b 0).toNat ≤ 127 ∧ 2 ≤ (byteAt b 1).toNat ∧ (byteAt b 1).toNat ≤ 10 ∧ -4 ≤ code ∧ code ≤ 2 ∧ 1 ≤ adj ∧
      fieldAt b 11 2 ≤ 4095 ∧ thr ≤ 10 ^ 9 ∧ 1 ≤ gate ∧ gate ≤ 10 ^ 9 ∧ 1 ≤ win ∧ win ≤ 10 ^ 6 then
    some
      { domain := byteAt b 0
        multiple := (byteAt b 1).toNat
        probeCode := code
        probeIp := bitsAt 32 b 3 4
        maxAdjust := min maxAdjustLimit adj
        kp := fieldAt b 11 2
        ki := fieldAt b 13 2
        stepThreshold := thr
        outlierGate := gate
        lockWindow := win
        holdoverLimit := fieldAt b 27 2 }
  else none

/-- The source table under a new SERVO record: emptied by a change of domain (R55); else less the records that the new
multiple has timed out (R54). `s` holds the new record. -/
def prunedSources (domainChanged : Bool) (s : State) : Vector (Option SourceRec) 8 :=
  mapSources
    (fun r =>
      match r with
      | some x => if domainChanged = true ∨ timedOut s x = true then none else some x
      | none => none) s.sources

/-- The SERVO record replaced as part of a write (R54, R55, R77, R78, R101, R111): a and I clamped; the probe schedule
moved when the interval code changed; the source table pruned, and selection rerun once, after every removal, when the
selected record was removed (DESIGN CHOICE, assumption 8); a probe schedule whose moved expiry has already been passed
expired at once (assumption 8); a holdover that exceeds a changed limit ended. -/
def applyServo (cfg : ServoCfg) (s : State) : State :=
  let old := s.servoCfg
  let s1 :=
    { s with
      servoCfg := cfg
      servo :=
        { s.servo with
          a := clamp cfg.maxAdjust s.servo.a, integ := clamp (cfg.maxAdjust * 65536) s.servo.integ } }
  let s2 :=
    if cfg.probeCode = old.probeCode then s1
    else { s1 with exch := { s1.exch with sched := rescheduled s1 s1.exch.sched } }
  let s3 := { s2 with sources := prunedSources (decide (cfg.domain ≠ old.domain)) s2 }
  let s4 := if s3.selectedName = s.selectedName then s3 else rerunSelection s.selectedName s3
  let s5 := if cfg.probeCode = old.probeCode then s4 else expireSchedule s4
  if cfg.holdoverLimit = old.holdoverLimit then s5 else expireHoldover s5

/-- Writing the SERVO record. -/
def writeServo (b : List Byte) (s : State) : EntryResult :=
  match decodeServo b with
  | some cfg => .applied (decide (maxAdjustLimit < fieldAt b 7 4)) (applyServo cfg s)
  | none => .refused .badValue

/-- The SERVO record as it reads back (R101). -/
def readServo (s : State) : List Byte :=
  let c := s.servoCfg
  [c.domain, BitVec.ofNat 8 c.multiple, BitVec.ofInt 8 c.probeCode] ++ beBytes 4 c.probeIp.toNat ++
    beBytes 4 c.maxAdjust ++ beBytes 2 c.kp ++ beBytes 2 c.ki ++ beBytes 4 c.stepThreshold ++
    beBytes 4 c.outlierGate ++ beBytes 4 c.lockWindow ++ beBytes 2 c.holdoverLimit

/-- Writing the CIVIL record (R201). -/
def writeCivil (b : List Byte) (s : State) : EntryResult :=
  .applied false { s with civil := signedOf 16 (fieldAt b 0 2) }

/-! ### CADENCE -/

/-- A mode byte (R209). -/
def modeOf (n : Nat) : Option CadMode :=
  match n with
  | 0 => some .off
  | 1 => some .continuous
  | 2 => some .oneShot
  | _ => none

/-- The byte of a mode. -/
def CadMode.code : CadMode → Byte
  | .off => 0
  | .continuous => 1
  | .oneShot => 2

/-- A shape byte (R209). -/
def shapeOf (n : Nat) : Option Shape :=
  match n with
  | 0 => some .pulse
  | 1 => some .square
  | _ => none

/-- The byte of a shape. -/
def Shape.code : Shape → Byte
  | .pulse => 0
  | .square => 1

/-- A run policy byte (R209). -/
def policyOf (n : Nat) : Option Policy :=
  match n with
  | 0 => some .always
  | 1 => some .whenTraced
  | _ => none

/-- The byte of a run policy. -/
def Policy.code : Policy → Byte
  | .always => 0
  | .whenTraced => 1

/-- The greatest rate term (R119). -/
def maxRate : Nat := 16777215

/-- A written width brought into 8 to floor(P) − 8 (R121). -/
def fitWidth (floorP w : Nat) : Nat := max 8 (min (floorP - 8) w)

/-- A written cadence record with its width adjusted (R120, R121, R209): none when it is refused. -/
def decodeCad (b : List Byte) : Option CadRec :=
  let num := fieldAt b 3 4
  let den := fieldAt b 7 4
  match modeOf (byteAt b 0).toNat, shapeOf (byteAt b 1).toNat, policyOf (byteAt b 2).toNat with
  | some m, some sh, some p =>
    if num = 0 ∨ den = 0 ∨ maxRate < num ∨ maxRate < den ∨ den * 10 ^ 7 < num then none
    else
      some
        { mode := m, num := num, den := den, phase := fieldAt b 11 4, shape := sh,
          width := fitWidth (den * 10 ^ 9 / num) (fieldAt b 15 4), policy := p }
  | _, _, _ => none

/-- The state with cadence record `n` of bank `k` replaced. -/
def State.setCadRec (s : State) (k : Fin 4) (n : Fin 8) (r : CadRec) : State :=
  { s with banks := s.banks.set k { s.banks[k] with cad := s.banks[k].cad.set n r } }

/-- A cadence record stored in bank `k` (R138, R139): a changed record of the active bank restarts its cadence by the
later-than form. The output that this ends is inactive at a tick whose events are not all taken (R157, R159; DESIGN
CHOICE, assumption 6). -/
def storeCad (k : Fin 4) (n : Fin 8) (r : CadRec) (s : State) : State :=
  let s1 := s.setCadRec k n r
  if k = s.active ∧ s.banks[k].cad[n] ≠ r then endEvent s (restartCad n r (laterThanNow s) s1) else s1

/-- While a switch is pending, writing this entry of CADENCE, LINES or LABELS is refused (R150). -/
def writeBlocked (s : State) (k : Fin 4) (cadence : Option (Fin 8)) : Bool :=
  match s.switch with
  | none => false
  | some q =>
    decide (k = q.target) ||
      (match q.trigger, cadence with
        | .atEdge c, some n => decide (k = s.active ∧ n = c)
        | _, _ => false)

/-- Writing CADENCE entry `i` of bank `k`. -/
def writeCad (k : Fin 4) (i : Nat) (b : List Byte) (s : State) : EntryResult :=
  match finOf 8 i with
  | none => .refused .badIndex
  | some n =>
    if writeBlocked s k (some n) then .refused .switchPending
    else
      match decodeCad b with
      | some r => .applied (decide (r.width ≠ fieldAt b 15 4)) (storeCad k n r s)
      | none => .refused .badValue

/-- The byte of a cadence state (R209). -/
def CadState.code : CadState → Byte
  | .off => 0
  | .waiting => 1
  | .running _ _ => 2
  | .idle => 3
  | .armed _ _ => 4
  | .done => 5

/-- The held edge index and next edge time of a cadence, where present (R124). -/
def CadState.held : CadState → Option (Nat × Nat)
  | .running k t => some (k, t)
  | .armed k t => some (k, t)
  | _ => none

/-- The runtime bytes of a cadence (R142, R209). -/
def encodeRun (x : CadRun) : List Byte :=
  [x.st.code, flagByte x.pulse.isSome, BitVec.ofNat 8 (bitsByte [x.st.held.isSome, x.last.isSome])] ++
    beBytes 10 ((x.st.held.map Prod.fst).getD 0) ++ timeBytes ((x.st.held.map Prod.snd).getD 0) ++
    beBytes 10 ((x.last.map Prod.fst).getD 0) ++ timeBytes ((x.last.map Prod.snd).getD 0)

/-- CADENCE entry `n` of bank `k` as it reads back (R142): the runtime for the active bank, OFF for another. -/
def readCad (k : Fin 4) (n : Fin 8) (s : State) : List Byte :=
  let r := s.banks[k].cad[n]
  [r.mode.code, r.shape.code, r.policy.code] ++ beBytes 4 r.num ++ beBytes 4 r.den ++ beBytes 4 r.phase ++
    beBytes 4 r.width ++ encodeRun (if k = s.active then s.cad[n] else CadRun.reset)

/-! ### LINES -/

/-- A source byte and number (R158, R209). -/
def sourceOf (src num : Nat) : Option Source :=
  match src with
  | 0 => some .low
  | 1 => some .high
  | 2 => (finOf 8 num).map .cadence
  | 3 => (finOf 2 num).map .labelData
  | 4 => (finOf 2 num).map .labelClock
  | 5 => some .locked
  | 6 => some .traced
  | 7 => some .backup
  | _ => none

/-- The bytes of a source; a source without a number reads back number 0 (assumption 10). -/
def Source.bytes : Source → List Byte
  | .low => [0, 0]
  | .high => [1, 0]
  | .cadence n => [2, BitVec.ofNat 8 n]
  | .labelData m => [3, BitVec.ofNat 8 m]
  | .labelClock m => [4, BitVec.ofNat 8 m]
  | .locked => [5, 0]
  | .traced => [6, 0]
  | .backup => [7, 0]

/-- A polarity byte (R209). -/
def polarityOf (n : Nat) : Option Polarity :=
  match n with
  | 0 => some .normal
  | 1 => some .inverted
  | _ => none

/-- The byte of a polarity. -/
def Polarity.code : Polarity → Byte
  | .normal => 0
  | .inverted => 1

/-- A written route record (R158): none when it is refused. -/
def decodeRoute (b : List Byte) : Option Route :=
  match sourceOf (byteAt b 0).toNat (byteAt b 1).toNat, polarityOf (byteAt b 2).toNat with
  | some s, some p => some { source := s, polarity := p }
  | _, _ => none

/-- The state with route record `n` of bank `k` replaced. -/
def State.setRoute (s : State) (k : Fin 4) (n : Fin 12) (r : Route) : State :=
  { s with banks := s.banks.set k { s.banks[k] with lines := s.banks[k].lines.set n r } }

/-- Writing LINES entry `i` of bank `k` (R158, R160): the pin follows from the next tick. -/
def writeLine (k : Fin 4) (i : Nat) (b : List Byte) (s : State) : EntryResult :=
  match finOf 12 i with
  | none => .refused .badIndex
  | some n =>
    if writeBlocked s k none then .refused .switchPending
    else
      match decodeRoute b with
      | some r => .applied false (s.setRoute k n r)
      | none => .refused .badValue

/-- LINES entry `n` of bank `k` as it reads back (R161). -/
def readLine (k : Fin 4) (n : Fin 12) (s : State) : List Byte :=
  let r := s.banks[k].lines[n]
  r.source.bytes ++ [r.polarity.code, flagByte (decide (k = s.active) && s.pins[n])]

/-! ### LABELS -/

/-- An enable byte (R209). -/
def enableOf (n : Nat) : Option Bool :=
  match n with
  | 0 => some false
  | 1 => some true
  | _ => none

/-- A clock edge byte (R209). -/
def clockEdgeOf (n : Nat) : Option ClockEdge :=
  match n with
  | 0 => some .rising
  | 1 => some .falling
  | _ => none

/-- The byte of a clock edge. -/
def ClockEdge.code : ClockEdge → Byte
  | .rising => 0
  | .falling => 1

/-- A written label configuration (R164): none when it is refused. -/
def decodeLabel (b : List Byte) : Option LabelCfg :=
  match enableOf (byteAt b 0).toNat, finOf 8 (byteAt b 1).toNat, clockEdgeOf (byteAt b 6).toNat with
  | some e, some c, some k =>
    if fieldAt b 4 2 < 2 then none
    else some { enable := e, cadence := c, delay := fieldAt b 2 2, period := fieldAt b 4 2, edge := k }
  | _, _, _ => none

/-- The state with label configuration `m` of bank `k` replaced. -/
def State.setLabel (s : State) (k : Fin 4) (m : Fin 2) (c : LabelCfg) : State :=
  { s with banks := s.banks.set k { s.banks[k] with labels := s.banks[k].labels.set m c } }

/-- A label configuration stored in bank `k` (R172): a changed one of the active bank abandons its serializer's word. -/
def storeLabel (k : Fin 4) (m : Fin 2) (c : LabelCfg) (s : State) : State :=
  let s1 := s.setLabel k m c
  if k = s.active ∧ s.banks[k].labels[m] ≠ c then s1.setSer m (s.ser[m].abandon s.banks[k].labels[m]) else s1

/-- Writing LABELS entry `i` of bank `k`. -/
def writeLabel (k : Fin 4) (i : Nat) (b : List Byte) (s : State) : EntryResult :=
  match finOf 2 i with
  | none => .refused .badIndex
  | some m =>
    if writeBlocked s k none then .refused .switchPending
    else
      match decodeLabel b with
      | some c => .applied false (storeLabel k m c s)
      | none => .refused .badValue

/-- The bit position of a word: 255 in its start delay (R209). -/
def bitPosition (c : LabelCfg) (w : LabelWord) : Nat :=
  if w.count < c.delay then 255 else (w.count - c.delay) / c.period

/-- The runtime bytes of a serializer (R175, R209). -/
def encodeSer (c : LabelCfg) (x : Serializer) : List Byte :=
  match x.word with
  | some w =>
    if w.isDone c then [0, flagByte x.stepSeen, 0] ++ beBytes 5 0
    else [1, flagByte x.stepSeen, BitVec.ofNat 8 (bitPosition c w)] ++ beBytes 5 w.index
  | none => [0, flagByte x.stepSeen, 0] ++ beBytes 5 0

/-- LABELS entry `m` of bank `k` as it reads back (R175). -/
def readLabel (k : Fin 4) (m : Fin 2) (s : State) : List Byte :=
  let c := s.banks[k].labels[m]
  [flagByte c.enable, BitVec.ofNat 8 c.cadence] ++ beBytes 2 c.delay ++ beBytes 2 c.period ++ [c.edge.code] ++
    encodeSer c (if k = s.active then s.ser[m] else Serializer.reset)

/-! ### CAPTURE -/

/-- An edge select byte (R209). -/
def selOf (n : Nat) : Option EdgeSel :=
  match n with
  | 0 => some .none
  | 1 => some .rising
  | 2 => some .falling
  | 3 => some .both
  | _ => none

/-- The byte of an edge select. -/
def EdgeSel.code : EdgeSel → Byte
  | .none => 0
  | .rising => 1
  | .falling => 2
  | .both => 3

/-- A ring mode byte (R209). -/
def ringOf (n : Nat) : Option RingMode :=
  match n with
  | 0 => some .continuous
  | 1 => some .oneShot
  | _ => none

/-- The byte of a ring mode. -/
def RingMode.code : RingMode → Byte
  | .continuous => 0
  | .oneShot => 1

/-- A bound cadence byte: 255 for NONE (R209). -/
def boundOf (n : Nat) : Option (Option (Fin 8)) := if n = 255 then some none else (finOf 8 n).map some

/-- A written capture record (R177, R209): none when it is refused. The window index is the low 4 bits of its byte. -/
def decodeCapture (b : List Byte) : Option CapRec :=
  match selOf (byteAt b 0).toNat, ringOf (byteAt b 2).toNat, boundOf (byteAt b 3).toNat with
  | some e, some m, some c =>
    some { sel := e, qual := (byteAt b 1).toNat, mode := m, bound := c, window := bitsAt 4 b 4 1 }
  | _, _, _ => none

/-- Writing CAPTURE record `i` (R177, R180). -/
def writeCapture (i : Nat) (b : List Byte) (s : State) : EntryResult :=
  match finOf 4 i, decodeCapture b with
  | some n, some r =>
    .applied false
      ({ s with capRec := s.capRec.set n r }.setCap n (s.cap[n].reconfigure s.capRec[n] r))
  | _, _ => .refused .badValue

/-- The byte of a line state. -/
def LineState.code : LineState → Byte
  | .run => 0
  | .full => 1

/-- CAPTURE record `n` as it reads back (R191). -/
def readCaptureRec (n : Fin 4) (s : State) : List Byte :=
  let r := s.capRec[n]
  let x := s.cap[n]
  [r.sel.code, BitVec.ofNat 8 r.qual, r.mode.code,
    (match r.bound with
      | some c => BitVec.ofNat 8 c
      | none => 255),
    r.window.setWidth 8, x.st.code, BitVec.ofNat 8 x.ring.length,
    BitVec.ofNat 8 (bitsByte [x.inWindow, x.phase.isSome])] ++ beBytes 8 (unsignedOf 64 (x.phase.getD 0))

/-! ### NOTIFY and MANAGERS -/

/-- An egress port byte (R209). -/
def egressOf (n : Nat) : Option Port :=
  match n with
  | 0 => some .n
  | 1 => some .d
  | _ => none

/-- The byte of a port. -/
def portCode : Port → Byte
  | .n => 0
  | .d => 1

/-- A written NOTIFY record (R207): none when it is refused. A present flag that is not zero is set (assumption 10). -/
def decodeNotify (b : List Byte) : Option NotifyCfg :=
  (egressOf (byteAt b 7).toNat).map fun p =>
    { dest := present (decide (byteAt b 0 ≠ 0)) (bitsAt 48 b 1 6), egress := p, holdoff := fieldAt b 8 2,
      enable := byteAt b 10 }

/-- Writing NOTIFY record `i` (R207): the group's runtime state is kept. -/
def writeNotify (i : Nat) (b : List Byte) (s : State) : EntryResult :=
  match finOf 4 i, decodeNotify b with
  | some g, some c => .applied false { s with notifyCfg := s.notifyCfg.set g c }
  | _, _ => .refused .badValue

/-- NOTIFY record `g` as it reads back (R207). -/
def readNotify (g : Fin 4) (s : State) : List Byte :=
  let c := s.notifyCfg[g]
  let x := s.groups[g]
  [flagByte c.dest.isSome] ++ beBytes 6 ((c.dest.map BitVec.toNat).getD 0) ++ [portCode c.egress] ++
    beBytes 2 c.holdoff ++ [c.enable, x.pending, flagByte (decide (x.st ≠ .idle)), flagByte x.reported]

/-- Writing MANAGERS entry `i` (R196): every 48-bit value is accepted. -/
def writeManager (i : Nat) (b : List Byte) (s : State) : EntryResult :=
  match finOf 4 i with
  | some n => .applied false { s with managers := s.managers.set n (bitsAt 48 b 0 6) }
  | none => .refused .badIndex

/-! ### SOURCES -/

/-- The byte of a source state. -/
def SrcState.code : SrcState → Byte
  | .qualifying => 0
  | .eligible => 1

/-- A slot of SOURCES as it reads back (R67): an empty slot is zero throughout; the time since last heard is in µs,
truncated and held at 4,294,967,295. -/
def readSource (i : Fin 8) (s : State) : List Byte :=
  match s.sources[i] with
  | none => List.replicate 41 0
  | some r =>
    [1, r.st.code, flagByte r.selected, flagByte r.civilValid] ++ beBytes 8 r.sender.toNat ++
      beBytes 2 r.portNo.toNat ++ beBytes 8 r.tsIdent.toNat ++ [r.pref1, r.cls, r.accuracy] ++
      beBytes 2 r.variance.toNat ++ [r.pref2] ++ beBytes 2 r.hops.toNat ++ beBytes 2 (unsignedOf 16 r.civil) ++
      [BitVec.ofInt 8 r.interval] ++ beBytes 2 r.lastSeq.toNat ++ beBytes 2 r.count ++
      beBytes 4 (min 4294967295 (s.since r.lastHeard / 256000))

/-! ### One entry, and a request's entries -/

/-- Writing one entry of a table (R200). -/
def writeEntry (t : TableId) (i : Nat) (b : List Byte) (s : State) : EntryResult :=
  match t with
  | .classify => writeClassify i b s
  | .port => writePort i b s
  | .servo => writeServo b s
  | .civil => writeCivil b s
  | .cadence k => writeCad k i b s
  | .lines k => writeLine k i b s
  | .labels k => writeLabel k i b s
  | .capture => writeCapture i b s
  | .notify => writeNotify i b s
  | .managers => writeManager i b s
  | .sources => .refused .badTable

/-- One entry of a table as it reads back (R202). -/
def readEntry (t : TableId) (i : Nat) (s : State) : List Byte :=
  match t with
  | .classify => (finOf 32 i).elim [] fun n => encodeClass s.classify[n]
  | .port => readPort i s
  | .servo => readServo s
  | .civil => beBytes 2 (unsignedOf 16 s.civil)
  | .cadence k => (finOf 8 i).elim [] fun n => readCad k n s
  | .lines k => (finOf 12 i).elim [] fun n => readLine k n s
  | .labels k => (finOf 2 i).elim [] fun m => readLabel k m s
  | .capture => (finOf 4 i).elim [] fun n => readCaptureRec n s
  | .notify => (finOf 4 i).elim [] fun g => readNotify g s
  | .managers => (finOf 4 i).elim [] fun n => addrBytes s.managers[n]
  | .sources => (finOf 8 i).elim [] fun n => readSource n s

/-- The outcome of a WRITE_TABLE's entries: the status, the number applied, and the state. -/
structure WriteOutcome where
  st : Status
  count : Nat
  after : State

/-- The entries of a WRITE_TABLE are applied one at a time, in rising index, up to the first that is refused (R200).
`done` entries have been applied; `clamped` says whether one of them was clamped. -/
def writeEntries (t : TableId) : Nat → List (List Byte) → Nat → Bool → State → WriteOutcome
  | _, [], done, clamped, s => { st := if clamped then .clamped else .ok, count := done, after := s }
  | i, b :: rest, done, clamped, s =>
    match writeEntry t i b s with
    | .applied c s1 => writeEntries t (i + 1) rest (done + 1) (clamped || c) s1
    | .refused st => { st := st, count := done, after := s }

/-- The entries a READ_TABLE returns, in index order (R202). -/
def readEntries (t : TableId) : Nat → Nat → State → List Byte
  | _, 0, _ => []
  | i, n + 1, s => readEntry t i s ++ readEntries t (i + 1) n s

end Sys2Proof.Machine
end

