-- ==== Sys2Proof/Machine/Agent.lean ====
section
/-!
DEFINITION. Machine/Agent.lean: the management agent (R193 to R198) and the commands a manager can send.
-/

namespace Sys2Proof.Machine

/-- The part's commands (R209, management header). -/
inductive Command where
  | identify
  | readStatus
  | readTable
  | writeTable
  | switchBank
  | stepTime
  | setTime
  | setTrim
  | armOneshot
  | disarmOneshot
  | readCapture
  | clearEvents
  | restart
  deriving DecidableEq, Repr

/-- The command a code names (R209). -/
def commandOf (code : Nat) : Option Command :=
  match code with
  | 1 => some .identify
  | 2 => some .readStatus
  | 3 => some .readTable
  | 4 => some .writeTable
  | 5 => some .switchBank
  | 6 => some .stepTime
  | 7 => some .setTime
  | 8 => some .setTrim
  | 9 => some .armOneshot
  | 10 => some .disarmOneshot
  | 11 => some .readCapture
  | 12 => some .clearEvents
  | 13 => some .restart
  | _ => none

/-- The length of a command's request body (R209); for WRITE_TABLE the table reference, its entries being checked under
R199. -/
def Command.bodySize : Command → Nat
  | .identify => 0
  | .readStatus => 0
  | .readTable => 4
  | .writeTable => 4
  | .switchBank => 13
  | .stepTime => 8
  | .setTime => 10
  | .setTrim => 4
  | .armOneshot => 11
  | .disarmOneshot => 1
  | .readCapture => 2
  | .clearEvents => 2
  | .restart => 0

/-- A command every station may issue whatever the manager list holds (R196); READ_CAPTURE only without rearm. -/
def openToAll (c : Command) (body : List Byte) : Bool :=
  match c with
  | .identify => true
  | .readStatus => true
  | .readTable => true
  | .readCapture => byteAt body 1 == 0#8
  | _ => false

/-- The manager list is empty: every entry is all zero bits (R196). -/
def listEmpty (s : State) : Bool := s.managers.toList.all fun a => a == 0#48

/-- A command is permitted to a sender (R196). An empty entry names no station. -/
def permitted (s : State) (c : Command) (src : Addr) (body : List Byte) : Bool :=
  listEmpty s || openToAll c body || s.managers.toList.any fun a => a != 0#48 && a == src

/-- Checks 2 and 3 of R195: the status of the first that fails. -/
def precheck (s : State) (c : Command) (r : Request) : Option Status :=
  if r.data.length - 8 < r.bodyLen ∨ r.bodyLen < c.bodySize then some .badValue
  else if permitted s c r.src r.body then none
  else some .notPermitted

/-- What a command answers: a status, a body and the state after its effect. -/
structure Reply where
  st : Status
  body : List Byte
  after : State

/-- The response to a request (R194): to its sender, with its tag, its command code and its tag control information. -/
def responseFrame (s : State) (r : Request) (st : Status) (body : List Byte) : List Byte :=
  mgmtFrame r.src s.station r.tci 2 r.tag r.code st.code body

/-- A response is handed to the ordinary-class queue of the port its request came in on (R13, R194). -/
def respond (r : Request) (a : Reply) : State :=
  arrive r.port .ordinary { bytes := responseFrame a.after r a.st a.body, origin := .response false } a.after

/-- The agent takes the oldest request, if it may begin one (R194, R198) and that request names the command `c`; `core`
is the command with its own checks, applied after the checks of R195. -/
def serve (c : Command) (core : List Byte → State → Reply) (s : State) : State :=
  match s.restart, s.requests with
  | .idle, r :: rest =>
    if commandOf r.code = some c then
      let s1 := { s with requests := rest }
      match precheck s1 c r with
      | some st => respond r { st := st, body := [], after := s1 }
      | none => respond r (core r.body s1)
    else s
  | _, _ => s

/-- A reply with an empty body. -/
def plain (st : Status) (s : State) : Reply := { st := st, body := [], after := s }

/-- BAD_COMMAND_REQUEST (R195): the oldest request's code names no command; it is answered with an empty body. -/
def badCommand (s : State) : State :=
  match s.restart, s.requests with
  | .idle, r :: rest =>
    if commandOf r.code = none then respond r (plain .badCommand { s with requests := rest }) else s
  | _, _ => s

/-- BAD_COMMAND_REQUEST. -/
def execBadCommandRequest (s : State) : Answer := .next (badCommand s)

/-! ### IDENTIFY and READ_STATUS (R197) -/

/-- The body of IDENTIFY: vendor code 0x0B7A, part code 2612, revision 1, station address, timing identity, port 1. -/
def identityBody (s : State) : List Byte :=
  beBytes 2 0x0B7A ++ beBytes 2 2612 ++ [1] ++ addrBytes s.station ++ beBytes 8 s.identity.toNat ++ beBytes 2 1

/-- IDENTIFY. -/
def execIdentify (s : State) : Answer :=
  .next (serve .identify (fun _ t => { st := .ok, body := identityBody t, after := t }) s)

/-- The byte of a servo state (R209). -/
def ServoState.code : ServoState → Byte
  | .free => 0
  | .acquire => 1
  | .track => 2
  | .holdover => 3

/-- The switch items of READ_STATUS (R147, R209): zero throughout when no switch is pending; the edge index and next
edge time that the trigger cadence holds for an AT_EDGE trigger; the time for an AT_TIME trigger. -/
def switchBody (s : State) : List Byte :=
  match s.switch with
  | none => List.replicate 35 0
  | some q =>
    match q.trigger with
    | .atEdge c =>
      [1, BitVec.ofNat 8 q.target, 1, BitVec.ofNat 8 c] ++ List.replicate 10 0 ++ [flagByte q.due] ++
        beBytes 10 ((s.cad[c].st.held.map Prod.fst).getD 0) ++ timeBytes ((s.cad[c].st.held.map Prod.snd).getD 0)
    | .atTime sec ns =>
      [1, BitVec.ofNat 8 q.target, 2, 0] ++ beBytes 6 sec ++ beBytes 4 ns ++ [flagByte q.due] ++ List.replicate 20 0

/-- The selected source of READ_STATUS: zero behind a clear present byte when there is none (R209). -/
def selectedBody (s : State) : List Byte :=
  match s.selected with
  | some r => [1] ++ beBytes 8 r.sender.toNat ++ beBytes 2 r.portNo.toNat
  | none => List.replicate 11 0

/-- The last offset of READ_STATUS (R84). -/
def offsetBody (s : State) : List Byte :=
  match s.exch.lastOffset with
  | some o => [1] ++ beBytes 4 (unsignedOf 32 o.ns)
  | none => List.replicate 5 0

/-- The body of READ_STATUS (R197, R209). -/
def statusBody (s : State) : List Byte :=
  [s.servo.st.code, BitVec.ofNat 8 (bitsByte [s.servo.locked, s.servo.traced])] ++ selectedBody s ++ offsetBody s ++
    beBytes 4 (unsignedOf 32 s.servo.a) ++ [flagByte (decide (s.clock ≠ .normal)), BitVec.ofNat 8 s.active] ++
    switchBody s ++ (allFour.map fun g => s.groups[g].pending) ++ timeBytes s.time.totalNs ++
    beBytes 8 s.elapsed.toNat

/-- READ_STATUS. -/
def execReadStatus (s : State) : Answer :=
  .next (serve .readStatus (fun _ t => { st := .ok, body := statusBody t, after := t }) s)

/-! ### READ_TABLE and WRITE_TABLE (R199 to R202) -/

/-- The table reference of a body with another count. -/
def refWithCount (body : List Byte) (count : Nat) : List Byte := body.take 3 ++ [BitVec.ofNat 8 count]

/-- The checks of R199 in their order: the table, or the status of the first that fails. -/
def tableCheck (writing : Bool) (body : List Byte) : Sum TableId Status :=
  match tableOf (byteAt body 0).toNat (byteAt body 1).toNat with
  | none => .inr .badTable
  | some t =>
    let start := (byteAt body 2).toNat
    let count := (byteAt body 3).toNat
    if writing = true ∧ t = .sources then .inr .badTable
    else if t.entries ≤ start ∨ t.entries < start + count then .inr .badIndex
    else if writing = true ∧ body.length - 4 < count * t.size then .inr .badValue
    else .inl t

/-- READ_TABLE after the checks of R195. -/
def readTableCore (body : List Byte) (s : State) : Reply :=
  match tableCheck false body with
  | .inr st => { st := st, body := refWithCount body 0, after := s }
  | .inl t =>
    let count := (byteAt body 3).toNat
    { st := .ok, body := refWithCount body count ++ readEntries t (byteAt body 2).toNat count s, after := s }

/-- READ_TABLE. -/
def execReadTable (s : State) : Answer := .next (serve .readTable readTableCore s)

/-- WRITE_TABLE after the checks of R195: the response gives the number of entries applied. -/
def writeTableCore (body : List Byte) (s : State) : Reply :=
  match tableCheck true body with
  | .inr st => { st := st, body := refWithCount body 0, after := s }
  | .inl t =>
    let r := writeEntries t (byteAt body 2).toNat (chunks t.size (byteAt body 3).toNat (body.drop 4)) 0 false s
    { st := r.st, body := refWithCount body r.count, after := r.after }

/-- WRITE_TABLE. -/
def execWriteTable (s : State) : Answer := .next (serve .writeTable writeTableCore s)

/-! ### SWITCH_BANK (R148, R149) -/

/-- A trigger byte (R209): 1 is AT_EDGE, 2 is AT_TIME. -/
def triggerByteOk (n : Nat) : Bool := decide (n = 1 ∨ n = 2)

/-- A cadence is RUNNING or ARMED (R148). -/
def hasEdge (s : State) (c : Fin 8) : Bool := s.cad[c].st.held.isSome

/-- A SWITCH_BANK toward another bank with no switch pending: its trigger is checked and the switch becomes PENDING
(R148). An AT_TIME at or before the present counter value is due at once (R151). -/
def acceptSwitch (target : Fin 4) (trig cad sec ns : Nat) (s : State) : Reply :=
  if trig = 1 then
    match finOf 8 cad with
    | none => plain .badIndex s
    | some c =>
      if hasEdge s c then
        plain .ok { s with switch := some { target := target, trigger := .atEdge c, due := false, dueTick := false } }
      else plain .wrongState s
  else if 10 ^ 9 ≤ ns then plain .badValue s
  else
    plain .ok
      { s with
        switch :=
          some { target := target, trigger := .atTime sec ns, due := s.atOrPast (triggerNs sec ns),
                 dueTick := false } }

/-- SWITCH_BANK after the checks of R195, in the order of R148 and R149. -/
def switchBankCore (body : List Byte) (s : State) : Reply :=
  match finOf 4 (byteAt body 0).toNat with
  | none => plain .badIndex s
  | some target =>
    if triggerByteOk (byteAt body 1).toNat = false then plain .badValue s
    else
      match s.switch with
      | some q =>
        if target ≠ s.active then plain .switchPending s
        else if q.due then plain .tooLate s
        else plain .ok (settleTick { s with switch := none })
      | none =>
        if target = s.active then plain .ok s
        else
          acceptSwitch target (byteAt body 1).toNat (byteAt body 2).toNat (fieldAt body 3 6) (fieldAt body 9 4) s

/-- SWITCH_BANK. -/
def execSwitchBank (s : State) : Answer := .next (serve .switchBank switchBankCore s)

/-! ### STEP_TIME, SET_TIME, SET_TRIM (R97 to R99) -/

/-- The state with a step asked for (R95). -/
def askStep (r : StepReq) (s : State) : State := { s with steps := s.steps ++ [r] }

/-- STEP_TIME after the checks of R195 (R97). The range check uses the value of the step tick, which the agent foresees
from the increment in force and the steps already asked for (assumption 11). -/
def stepTimeCore (body : List Byte) (s : State) : Reply :=
  let z := signedOf 64 (fieldAt body 0 8)
  if s.servo.st ≠ .free then plain .wrongState s
  else if z = 0 then plain .ok s
  else if ((StepReq.by (z * 256)).result (stepPreview s)).isNone then plain .badValue s
  else plain .ok (askStep (.by (z * 256)) s)

/-- STEP_TIME. -/
def execStepTime (s : State) : Answer := .next (serve .stepTime stepTimeCore s)

/-- SET_TIME after the checks of R195 (R98). -/
def setTimeCore (body : List Byte) (s : State) : Reply :=
  if s.servo.st ≠ .free then plain .wrongState s
  else if 10 ^ 9 ≤ fieldAt body 6 4 then plain .badValue s
  else plain .ok (askStep (.to (fieldAt body 0 6) (fieldAt body 6 4)) s)

/-- SET_TIME. -/
def execSetTime (s : State) : Answer := .next (serve .setTime setTimeCore s)

/-- SET_TRIM after the checks of R195 (R99): the adjustment applied is in the response. -/
def setTrimCore (body : List Byte) (s : State) : Reply :=
  let z := signedOf 32 (fieldAt body 0 4)
  let a := clamp s.servoCfg.maxAdjust z
  if s.servo.st ≠ .free then plain .wrongState s
  else
    { st := if a = z then .ok else .clamped, body := beBytes 4 (unsignedOf 32 a),
      after := { s with servo := { s.servo with a := a } } }

/-- SET_TRIM. -/
def execSetTrim (s : State) : Answer := .next (serve .setTrim setTrimCore s)

/-! ### ARM_ONESHOT and DISARM_ONESHOT (R130, R131, R150) -/

/-- A switch waits for an edge of cadence `n` (R150). -/
def switchWaitsOn (s : State) (n : Fin 8) : Bool :=
  match s.switch with
  | some q => q.trigger == .atEdge n
  | none => false

/-- ARM_ONESHOT after the checks of R195 (R130, table). -/
def armCore (body : List Byte) (s : State) : Reply :=
  match finOf 8 (byteAt body 0).toNat with
  | none => plain .badIndex s
  | some n =>
    let k := fieldAt body 1 10
    let t := (s.cadRec n).edgeTime k
    if switchWaitsOn s n then plain .switchPending s
    else if (s.cadRec n).mode ≠ .oneShot then plain .wrongState s
    else if limitNs ≤ t then plain .badValue s
    else if s.atOrPast t then plain .tooLate s
    else plain .ok (settleTick (s.setCad n { s.cad[n] with st := .armed k t }))

/-- ARM_ONESHOT. -/
def execArmOneshot (s : State) : Answer := .next (serve .armOneshot armCore s)

/-- DISARM_ONESHOT after the checks of R195 (R131): the state becomes IDLE; a pulse in progress runs on. R124 says
that in IDLE the output is inactive; where the two meet the model follows R131 (DESIGN CHOICE, assumption 21). -/
def disarmCore (body : List Byte) (s : State) : Reply :=
  match finOf 8 (byteAt body 0).toNat with
  | none => plain .badIndex s
  | some n =>
    if switchWaitsOn s n then plain .switchPending s
    else if (s.cadRec n).mode ≠ .oneShot then plain .wrongState s
    else plain .ok (settleTick (s.setCad n { s.cad[n] with st := .idle }))

/-- DISARM_ONESHOT. -/
def execDisarmOneshot (s : State) : Answer := .next (serve .disarmOneshot disarmCore s)

/-! ### READ_CAPTURE, CLEAR_EVENTS and RESTART -/

/-- The bytes of a capture stamp (R209). -/
def stampBytes (x : CapStamp) : List Byte :=
  beBytes 6 x.sec ++ beBytes 4 x.ns ++ [BitVec.ofNat 8 (bitsByte [x.falling, x.beforeStep])]

/-- The body of READ_CAPTURE (R185, R209). -/
def captureBody (x : CapLine) : List Byte :=
  [x.st.code, BitVec.ofNat 8 x.ring.length, flagByte x.inWindow, flagByte x.phase.isSome] ++
    beBytes 8 (unsignedOf 64 (x.phase.getD 0)) ++ (x.ring.map stampBytes).flatten

/-- READ_CAPTURE after the checks of R195 (R185). -/
def readCaptureCore (body : List Byte) (s : State) : Reply :=
  match finOf 4 (byteAt body 0).toNat with
  | none => plain .badIndex s
  | some n =>
    if byteAt body 1 = 0#8 then { st := .ok, body := captureBody s.cap[n], after := s }
    else if byteAt body 1 = 1#8 then
      { st := .ok, body := captureBody s.cap[n], after := s.setCap n s.cap[n].rearm }
    else plain .badValue s

/-- READ_CAPTURE. -/
def execReadCapture (s : State) : Answer := .next (serve .readCapture readCaptureCore s)

/-- CLEAR_EVENTS after the checks of R195 (R206). -/
def clearEventsCore (body : List Byte) (s : State) : Reply :=
  match finOf 4 (byteAt body 0).toNat with
  | none => plain .badIndex s
  | some g =>
    let x := { s.groups[g] with pending := s.groups[g].pending &&& ~~~ (byteAt body 1) }
    { st := .ok, body := [x.pending], after := s.setGroup g x }

/-- CLEAR_EVENTS. -/
def execClearEvents (s : State) : Answer := .next (serve .clearEvents clearEventsCore s)

/-- The response of a RESTART that is carried out (R198): it is handed to its port; the reset waits for it to leave, or
is due at once when it is discarded on arrival. -/
def respondRestart (r : Request) (s : State) : State :=
  arrive r.port .ordinary { bytes := responseFrame s r .ok [], origin := .response true }
    { s with restart := if canJoin r.port .ordinary s then .waiting else .due }

/-- RESTART (R198). -/
def restartRequest (s : State) : State :=
  match s.restart, s.requests with
  | .idle, r :: rest =>
    if commandOf r.code = some .restart then
      let s1 := { s with requests := rest }
      match precheck s1 .restart r with
      | some st => respond r { st := st, body := [], after := s1 }
      | none => respondRestart r s1
    else s
  | _, _ => s

/-- RESTART. -/
def execRestart (s : State) : Answer := .next (restartRequest s)

end Sys2Proof.Machine
end

