-- ==== Sys2Proof/Machine/Classify.lean ====
section
/-!
DEFINITION. Machine/Classify.lean: the frame classifier (Chapter 2).
-/

namespace Sys2Proof.Machine

/-- A disposition (R4): taken for management, or forwarded in a class with or without a correction mark, and copied to
the timing engine with the carrier and the header's position. Nothing in it: discarded. -/
structure Disposition where
  manage : Bool
  fwd : Option (TClass × Option CorrMark)
  copy : Option (Carrier × Nat)
  deriving DecidableEq, Repr

/-- The management pre-match (R19): the station or the broadcast address, and EtherType 0x9A3C. -/
def forManagement (station : Addr) (f : Facts) : Bool :=
  (f.dst == station || f.dst == BitVec.allOnes 48) && f.etherType == 0x9A3C#16

/-- The ports field includes the ingress port (R23). -/
def ClassEntry.portOk (e : ClassEntry) : Port → Bool
  | .n => e.portN
  | .d => e.portD

/-- A present destination and mask agree (R23). -/
def destOk (dest : Option (Addr × Addr)) (dst : Addr) : Bool :=
  match dest with
  | none => true
  | some (a, m) => dst &&& m == a &&& m

/-- A present VLAN condition agrees (R23). -/
def vlanOk (v : Option VlanMatch) (tci : Option (BitVec 16)) : Bool :=
  match v, tci with
  | none, _ => true
  | some .untagged, none => true
  | some .untagged, some _ => false
  | some (.id _), none => false
  | some (.id n), some t => vlanId t == n

/-- The UDP conditions of R24: a present port and carrier UDP4 need the layers, and a present port must be equal. -/
def udpOk (e : ClassEntry) (udp : Option UdpFacts) : Bool :=
  match udp with
  | none => e.udpPort == none && e.carrier != .udp4
  | some u =>
    match e.udpPort with
    | none => true
    | some q => u.dstPort == q

/-- The kind is in a kind set, bit k − 1 for kind k (R25). -/
def kindIn (kinds : BitVec 5) (kind : Nat) : Bool := decide (1 ≤ kind) && kinds.getLsbD (kind - 1)

/-- The header conditions of R25: a present kind set or domain needs a header that parses at the carrier position. -/
def headerOk (e : ClassEntry) (content : List Byte) (f : Facts) : Bool :=
  match e.kinds, e.domain with
  | none, none => true
  | _, _ =>
    match headerPos content f e.carrier with
    | none => false
    | some pos =>
      let h := readHdr content pos
      (match e.kinds with
        | none => true
        | some k => kindIn k h.kind) &&
      (match e.domain with
        | none => true
        | some d => h.domain == d)

/-- An entry matches a frame (R23 to R25). -/
def ClassEntry.isMatch (e : ClassEntry) (p : Port) (content : List Byte) (f : Facts) : Bool :=
  e.valid && e.portOk p && destOk e.dest f.dst && vlanOk e.vlan f.tci &&
    (e.etherType == none || e.etherType == some f.etherType) && udpOk e f.udp && headerOk e content f

/-- The correction mark for a header at `pos` (R27). -/
def markAt (c : Carrier) (pos : Nat) (f : Facts) : CorrMark :=
  { carrier := c
    hdrPos := pos
    udpPos := if c = .udp4 then f.udp.map UdpFacts.udpPos else none }

/-- The disposition a matching entry gives (R26 to R31). A copy is made of a frame from Port N only; an action that
needs a header that does not parse forwards unchanged, or discards under TAKE_TIMING (R30). -/
def ClassEntry.disposition (e : ClassEntry) (p : Port) (content : List Byte) (f : Facts) : Disposition :=
  let pos := headerPos content f e.carrier
  let copy := if p = .n then pos.map fun q => (e.carrier, q) else none
  let marked := pos.map fun q => markAt e.carrier q f
  match e.action with
  | .forward => { manage := false, fwd := some (e.cls, none), copy := none }
  | .forwardCorrect => { manage := false, fwd := some (e.cls, marked), copy := none }
  | .copyCorrect => { manage := false, fwd := some (e.cls, marked), copy := copy }
  | .takeTiming => { manage := false, fwd := none, copy := copy }
  | .drop => { manage := false, fwd := none, copy := none }

/-- The disposition of a frame from port `p` (R18): the management pre-match, then the first matching entry, then the
default. -/
def dispositionOf (s : State) (p : Port) (content : List Byte) : Disposition :=
  let f := factsOf content
  if forManagement s.station f then { manage := true, fwd := none, copy := none }
  else
    match s.classify.toList.find? fun e => e.isMatch p content f with
    | some e => e.disposition p content f
    | none => { manage := false, fwd := some (.ordinary, none), copy := none }

/-- A frame taken for management (R193): discarded when its data are shorter than 8 bytes, its version is not 1 or its
kind is not REQUEST, and at a queue of 4 requests; otherwise it joins the request queue. -/
def receiveRequest (p : Port) (bytes : List Byte) (s : State) : State :=
  let f := factsOf (contentOf bytes)
  let r : Request := { bytes := bytes, port := p, src := f.src, tci := f.tci }
  if r.data.length < 8 ∨ byteAt r.data 0 ≠ 1#8 ∨ byteAt r.data 1 ≠ 1#8 then s
  else if s.requests.length < 4 then { s with requests := s.requests ++ [r] }
  else s

/-- A disposition is applied (R4): the copy is handed over at classification (R28), and a forwarded frame arrives at
the other port's queue (R8). -/
def applyDisposition (p : Port) (r : FrameRec) (d : Disposition) (s : State) : State :=
  if d.manage then receiveRequest p r.bytes s
  else
    let content := contentOf r.bytes
    let s1 :=
      match d.copy with
      | some (c, pos) =>
        { s with copies := s.copies ++
            [{ bytes := r.bytes, stamp := r.stamp, carrier := c, hdrPos := pos,
               vlan := (factsOf content).tci.map vlanId }] }
      | none => s
    match d.fwd with
    | some (c, mark) => arrive (otherPort p) c { bytes := content, origin := .forwarded r.stamp mark } s1
    | none => s1

/-- CLASSIFY_FRAME (R18): the oldest frame record of port `p` is classified and its disposition applied. -/
def classifyNext (p : Port) (s : State) : State :=
  match (s.port p).records with
  | [] => s
  | r :: rest =>
    applyDisposition p r (dispositionOf s p (contentOf r.bytes)) (s.setPort p { s.port p with records := rest })

/-- CLASSIFY_FRAME. -/
def execClassifyFrame (p : Port) (s : State) : Answer := .next (classifyNext p s)

end Sys2Proof.Machine
end

