-- ==== Sys2Proof/Machine/Resets.lean ====
section
/-!
DEFINITION. Machine/Resets.lean: the cold reset (R117 and each block's own rule) and the warm reset (R198 and each
block's own rule).
-/

namespace Sys2Proof.Machine

/-- COLD_RESET (R6, R7, R17, R35, R50, R69, R90, R117, R144, R163, R176, R192, R196, R208): every block in its
cold-reset state. The station address stands in one-time memory; the queue of commands is the world's, not the part's.
-/
def coldReset (s : State) : State := { State.reset with pending := s.pending, station := s.station }

/-- COLD_RESET. -/
def execColdReset (s : State) : Answer := .next (coldReset s)

/-- The departures at a warm reset (R17, R50, R91): the notices of a departure come before the reset, so those whose
stamp only names a record that the reset removes are handed over on the tables as they stand before it, and those
corrected by their own stamp wait for it (assumption 17). -/
def departuresBeforeReset (s : State) : State :=
  handOverThose (fun d => !d.needsOwnStamp) s

/-- A port at a warm reset (R17): its queues emptied; port record, link state, the frame being sent, the frames being
received and the records with the classifier kept. -/
def PortState.warmReset (x : PortState) : PortState := { x with timingQ := [], ordinaryQ := [] }

/-- The servo at a warm reset (R118): FREE, a kept as trim, the traced flag kept. -/
def Servo.warmReset (v : Servo) : Servo := { Servo.reset with a := v.a, traced := v.traced }

/-- Every block at a warm reset: the ports (R17), the residence table (R50), the source table (R70), the exchange unit
(R91), the servo (R118), the pending switch (R162), the capture lines (R192), the agent (R198) and the notifier (R208).
All else continues. -/
def warmReset (s : State) : State :=
  { s with
    portN := s.portN.warmReset
    portD := s.portD.warmReset
    residence := []
    sources := Vector.replicate 8 none
    exch := Exchange.reset
    servo := s.servo.warmReset
    switch := none
    cap := mapCap (fun n x => x.warmReset s.capRec[n]) s.cap
    requests := []
    restart := .idle
    groups := Vector.replicate 4 Group.reset
    notifySeq := 0 }

/-- WARM_RESET (R198): it takes effect when a RESTART has made it due, and at no other time. -/
def warmResetWhenDue (s : State) : State :=
  if s.restart = .due then settleTick (warmReset (departuresBeforeReset s)) else s

/-- WARM_RESET. -/
def execWarmReset (s : State) : Answer := .next (warmResetWhenDue s)

end Sys2Proof.Machine
end

