-- ==== Sys2Proof/Machine/Dispatch.lean ====
section
/-!
DEFINITION. Machine/Dispatch.lean: one arm per command, each one call of its meaning.
-/

namespace Sys2Proof.Machine

def exec (i : Instr) (s : State) : Host.Outcome State Fault Refusal :=
  match i with
  | .coldReset => Sys2Proof.Machine.execColdReset s
  | .warmReset => Sys2Proof.Machine.execWarmReset s
  | .linkUp p => Sys2Proof.Machine.execLinkUp p s
  | .linkDown p => Sys2Proof.Machine.execLinkDown p s
  | .frameReceived p bytes cut => Sys2Proof.Machine.execFrameReceived p bytes cut s
  | .classifyFrame p => Sys2Proof.Machine.execClassifyFrame p s
  | .transmitStart p => Sys2Proof.Machine.execTransmitStart p s
  | .transmitEnd p => Sys2Proof.Machine.execTransmitEnd p s
  | .residenceRecordAgeOut k => Sys2Proof.Machine.execResidenceRecordAgeOut k s
  | .timingCopyIntake => Sys2Proof.Machine.execTimingCopyIntake s
  | .sourceTimeout k => Sys2Proof.Machine.execSourceTimeout k s
  | .probeScheduleExpiry => Sys2Proof.Machine.execProbeScheduleExpiry s
  | .pendingProbeAgeOut k => Sys2Proof.Machine.execPendingProbeAgeOut k s
  | .stepTick inp => Sys2Proof.Machine.execStepTick inp s
  | .holdoverExpired => Sys2Proof.Machine.execHoldoverExpired s
  | .clockLoss n inp => Sys2Proof.Machine.execClockLoss n inp s
  | .clockRestored => Sys2Proof.Machine.execClockRestored s
  | .cadenceEdge n => Sys2Proof.Machine.execCadenceEdge n s
  | .pulseEnd n => Sys2Proof.Machine.execPulseEnd n s
  | .oneshotFire n => Sys2Proof.Machine.execOneshotFire n s
  | .atTimeReached => Sys2Proof.Machine.execAtTimeReached s
  | .labelWordComplete m => Sys2Proof.Machine.execLabelWordComplete m s
  | .captureInputChange n => Sys2Proof.Machine.execCaptureInputChange n s
  | .captureAccept n => Sys2Proof.Machine.execCaptureAccept n s
  | .identify => Sys2Proof.Machine.execIdentify s
  | .readStatus => Sys2Proof.Machine.execReadStatus s
  | .readTable => Sys2Proof.Machine.execReadTable s
  | .writeTable => Sys2Proof.Machine.execWriteTable s
  | .switchBank => Sys2Proof.Machine.execSwitchBank s
  | .stepTime => Sys2Proof.Machine.execStepTime s
  | .setTime => Sys2Proof.Machine.execSetTime s
  | .setTrim => Sys2Proof.Machine.execSetTrim s
  | .armOneshot => Sys2Proof.Machine.execArmOneshot s
  | .disarmOneshot => Sys2Proof.Machine.execDisarmOneshot s
  | .readCapture => Sys2Proof.Machine.execReadCapture s
  | .clearEvents => Sys2Proof.Machine.execClearEvents s
  | .restart => Sys2Proof.Machine.execRestart s
  | .holdoffEnd g => Sys2Proof.Machine.execHoldoffEnd g s
  | .tick inp => Sys2Proof.Machine.execTick inp s
  | .restoreQualificationStart => Sys2Proof.Machine.execRestoreQualificationStart s
  | .restoreQualificationRestart => Sys2Proof.Machine.execRestoreQualificationRestart s
  | .badCommandRequest => Sys2Proof.Machine.execBadCommandRequest s

end Sys2Proof.Machine
end

