-- ==== Sys2Proof/Safety.lean ====
section
/-!
DEFINITION. Safety.lean: what the manual says holds of the part at every moment, in the terms the statements use. Each
predicate names the rule whose sentence it is.
-/

namespace Sys2Proof.Machine

/-- R92: the time counter's nanoseconds lie in 0 to 999,999,999 and its seconds in 0 to 2^48 − 1. -/
abbrev State.timeOk (s : State) : Prop := s.time.sec < 2 ^ 48 ∧ s.time.ns < 10 ^ 9

/-- R5, R6: the latencies are at most 16,777,215, and the asymmetry is a signed 32-bit number. -/
abbrev PortState.recordOk (x : PortState) : Prop :=
  x.ingressLat ≤ maxLatency ∧ x.egressLat ≤ maxLatency ∧ -2147483648 ≤ x.asym ∧ x.asym ≤ 2147483647

/-- R7: at most 8 frames wait in the timing class and 32 in the ordinary class. -/
abbrev PortState.queuesOk (x : PortState) : Prop := x.timingQ.length ≤ 8 ∧ x.ordinaryQ.length ≤ 32

/-- R1, R15: a DOWN port holds no queued frame, sends none and receives none. -/
abbrev PortState.downOk (x : PortState) : Prop :=
  x.link = .down → x.timingQ = [] ∧ x.ordinaryQ = [] ∧ x.tx = none ∧ x.receiving = none

/-- R1, R10, R15: a departure whose frame is still being sent left by an UP port that has a frame in transmission, and
its egress latency is one that R5 accepts. -/
abbrev Departure.sendingOk (s : State) (d : Departure) : Prop :=
  d.latency ≤ maxLatency ∧ (d.sending = true → (s.port d.port).link = .up ∧ (s.port d.port).tx ≠ none)

/-- R11, R48: a frame in transmission whose bytes the corrector has yet to give is a departure that waits for its
egress stamp, so that the answer comes. -/
abbrev State.answerComes (s : State) (p : Port) : Prop :=
  ∀ f ∈ (s.port p).tx, f.wire = none →
    ∃ d ∈ s.departing, d.port = p ∧ d.sending = true ∧ d.entry.isMarked = true

/-- Both ports are as R1, R5 and R7 say, Port D has no asymmetry (R5), and the departures that wait agree with the
frames in transmission. -/
abbrev State.portsOk (s : State) : Prop :=
  (s.portN.recordOk ∧ s.portN.queuesOk ∧ s.portN.downOk) ∧ (s.portD.recordOk ∧ s.portD.queuesOk ∧ s.portD.downOk) ∧
    s.portD.asym = 0 ∧ (∀ d ∈ s.departing, d.sendingOk s) ∧ s.answerComes .n ∧ s.answerComes .d

/-- R193: the request queue holds at most 4 requests. -/
abbrev State.requestsOk (s : State) : Prop := s.requests.length ≤ 4

/-- R41: at most 8 residence records, no two with the same key. -/
abbrev State.residenceOk (s : State) : Prop :=
  s.residence.length ≤ 8 ∧ s.residence.Pairwise fun a b => a.sameKey b = false

/-- R80, R83: at most 4 pending probes with distinct sequence numbers, and at most 8 delay samples, none negative. -/
abbrev State.exchangeOk (s : State) : Prop :=
  (s.exch.probes.length ≤ 4 ∧ s.exch.probes.Pairwise fun a b => a.seq ≠ b.seq) ∧
    s.exch.window.length ≤ 8 ∧ ∀ d ∈ s.exch.window, 0 ≤ d

/-- R101: max adjust is 1 to 100,000 ppb, the adjustment lies within ± max adjust and the integral within
± max adjust × 65,536. -/
abbrev State.adjustOk (s : State) : Prop :=
  (1 ≤ s.servoCfg.maxAdjust ∧ s.servoCfg.maxAdjust ≤ maxAdjustLimit) ∧
    s.servo.a.natAbs ≤ s.servoCfg.maxAdjust ∧ s.servo.integ.natAbs ≤ s.servoCfg.maxAdjust * 65536

/-- R106, R107, Chapter 6 table: at most 16 adjustments in the history, a lock count below 8 and an outlier count
below 4 between samples. -/
abbrev State.countsOk (s : State) : Prop :=
  s.servo.history.length ≤ 16 ∧ s.servo.lockCount < 8 ∧ s.servo.outlierCount < 4

/-- R102, R103, R106: LOCKED only in TRACK and with the lock-held flag; the lock-held flag only in TRACK; in FREE the
counts are 0; while LOCKED is clear the outlier count is 0. -/
abbrev State.lockOk (s : State) : Prop :=
  (s.servo.locked = true → s.servo.lockHeld = true) ∧ (s.servo.lockHeld = true → s.servo.st = .track) ∧
    (s.servo.st = .free → s.servo.lockCount = 0 ∧ s.servo.outlierCount = 0) ∧
    (s.servo.locked = false → s.servo.outlierCount = 0)

/-- R108: LOCKED or the lock-held flag is set only after the traced flag. -/
abbrev State.tracedOk (s : State) : Prop := s.servo.lockHeld = true → s.servo.traced = true

/-- R56: no two source records have the same sender identity and port number. -/
abbrev State.namesOk (s : State) : Prop :=
  ∀ i j : Fin 8, ∀ a ∈ s.sources[i], ∀ b ∈ s.sources[j], a.sender = b.sender ∧ a.portNo = b.portNo → i = j

/-- R64: at most one record is selected, and it is ELIGIBLE. -/
abbrev State.oneSelected (s : State) : Prop :=
  (∀ i : Fin 8, ∀ a ∈ s.sources[i], a.selected = true → a.st = .eligible) ∧
    ∀ i j : Fin 8, ∀ a ∈ s.sources[i], ∀ b ∈ s.sources[j], a.selected = true ∧ b.selected = true → i = j

/-- R64: the selected record is the best ELIGIBLE one, and without an ELIGIBLE record none is selected. -/
abbrev State.bestSelected (s : State) : Prop :=
  s.selectedName = s.bestEligible.map fun r => (r.sender, r.portNo)

/-- R109: in ACQUIRE and TRACK a record is selected; in HOLDOVER, and in FREE with the clock monitor NORMAL, none is;
in BACKUP the servo is FREE (R102). -/
abbrev State.servoSourceOk (s : State) : Prop :=
  (s.servo.st = .acquire ∨ s.servo.st = .track → s.selected.isSome = true) ∧
    (s.servo.st = .holdover ∨ (s.servo.st = .free ∧ s.clock = .normal) → s.selected = none) ∧
    (s.clock ≠ .normal → s.servo.st = .free)

/-- R119 to R121: the rate, the phase and the width of a stored cadence record. -/
abbrev CadRec.legal (r : CadRec) : Prop :=
  (1 ≤ r.num ∧ r.num ≤ maxRate) ∧ (1 ≤ r.den ∧ r.den ≤ maxRate) ∧ r.num ≤ r.den * 10 ^ 7 ∧
    r.phase ≤ 4294967295 ∧ 8 ≤ r.width ∧ r.width ≤ r.floorP - 8 ∧ r.width ≤ 4294967295

/-- R120, R122: every stored cadence record of every bank is legal. -/
abbrev State.recordsOk (s : State) : Prop := ∀ k : Fin 4, ∀ n : Fin 8, s.banks[k].cad[n].legal

/-- R124: the state of a cadence belongs to the mode of its record; a held edge time is that of the held index; in OFF
and WAITING the output is inactive. IDLE is left out of the last part: a pulse that runs on after a disarm is active
there (R131; assumption 21). -/
def CadRun.fits (r : CadRec) (x : CadRun) : Bool :=
  match x.st with
  | .off => r.mode == .off && x.pulse == none
  | .waiting => r.mode == .continuous && x.pulse == none
  | .running k t => r.mode == .continuous && t == r.edgeTime k
  | .idle => r.mode == .oneShot
  | .armed k t => r.mode == .oneShot && t == r.edgeTime k
  | .done => r.mode == .oneShot

/-- R124: every cadence fits its record of the active bank. -/
abbrev State.cadencesOk (s : State) : Prop := ∀ n : Fin 8, s.cad[n].fits (s.cadRec n) = true

/-- R147: a pending switch names a bank other than the active one. -/
abbrev State.switchOk (s : State) : Prop := ∀ q ∈ s.switch, q.target ≠ s.active

/-- R181, R182: at most 4 stamps in a ring; a FULL line is in ONE_SHOT mode and holds 4. -/
abbrev State.ringsOk (s : State) : Prop :=
  ∀ n : Fin 4, s.cap[n].ring.length ≤ 4 ∧
    (s.cap[n].st = .full → s.capRec[n].mode = .oneShot ∧ s.cap[n].ring.length = 4) ∧
    (s.capRec[n].mode = .oneShot ∧ s.cap[n].st = .run → s.cap[n].ring.length < 4)

/-- R178, R189: a line with edge select NONE holds its qualifier idle, and one with window index 0 its in-window flag
set. -/
abbrev State.linesOk (s : State) : Prop :=
  ∀ n : Fin 4, (s.capRec[n].sel = .none → s.cap[n].qual = .idle) ∧
    (s.capRec[n].window = 0 → s.cap[n].inWindow = true)

/-- R32: a valid entry satisfies the conditions of R32, a domain of at most 127 among them, and every other entry is the
empty entry. -/
abbrev State.classifyOk (s : State) : Prop :=
  ∀ i : Fin 32,
    (s.classify[i].valid = true ∧ s.classify[i].legal = true ∧ ∀ d ∈ s.classify[i].domain, d.toNat < 128) ∨
      s.classify[i] = ClassEntry.empty

/-- R54, R77, R101: every field of the SERVO record is in its range. -/
abbrev ServoCfg.legal (c : ServoCfg) : Prop :=
  (c.domain.toNat ≤ 127 ∧ 2 ≤ c.multiple ∧ c.multiple ≤ 10) ∧ (-4 ≤ c.probeCode ∧ c.probeCode ≤ 2) ∧
    (1 ≤ c.maxAdjust ∧ c.maxAdjust ≤ maxAdjustLimit) ∧ c.kp ≤ 4095 ∧ c.ki ≤ 65535 ∧ c.stepThreshold ≤ 10 ^ 9 ∧
    (1 ≤ c.outlierGate ∧ c.outlierGate ≤ 10 ^ 9) ∧ (1 ≤ c.lockWindow ∧ c.lockWindow ≤ 10 ^ 6) ∧
    c.holdoverLimit ≤ 65535

/-- R164, R177, R158, R207, R201: the bounds of the fields of label configurations, capture records, NOTIFY records and
the CIVIL record that their types do not give. -/
abbrev State.smallRecordsOk (s : State) : Prop :=
  (∀ k : Fin 4, ∀ m : Fin 2, s.banks[k].labels[m].delay ≤ 65535 ∧ 2 ≤ s.banks[k].labels[m].period ∧
      s.banks[k].labels[m].period ≤ 65535) ∧
    (∀ n : Fin 4, s.capRec[n].qual ≤ 255) ∧ (∀ g : Fin 4, s.notifyCfg[g].holdoff ≤ 65535) ∧
    -32768 ≤ s.civil ∧ s.civil ≤ 32767

/-- R204: an IDLE group's reported-during-holdoff flag is clear. -/
abbrev State.groupsOk (s : State) : Prop := ∀ g : Fin 4, s.groups[g].st = .idle → s.groups[g].reported = false

/-- The restore qualification counts no further than the 10 ms of R115. -/
def ClockState.countOk : ClockState → Bool
  | .backup (some n) => decide (n ≤ restoreTicks)
  | _ => true

/-- What raising an event can change and nothing else: the ordinary-class queues of the ports, where a notification may
join, the groups, and the notification sequence (R203 to R205). -/
def State.notifierFrame (s t : State) : Prop :=
  ∃ (qn qd : List EgressEntry) (gs : Vector Group 4) (k : BitVec 16),
    t =
      { s with
        portN := { s.portN with ordinaryQ := qn }, portD := { s.portD with ordinaryQ := qd }, groups := gs,
        notifySeq := k }

/-- What the arrival of a frame at a port's queue can change and nothing else: the queues of the ports, the groups, and
the notification sequence (R8). -/
def State.arrivalFrame (s t : State) : Prop :=
  ∃ (tn on td od : List EgressEntry) (gs : Vector Group 4) (k : BitVec 16),
    t =
      { s with
        portN := { s.portN with timingQ := tn, ordinaryQ := on },
        portD := { s.portD with timingQ := td, ordinaryQ := od }, groups := gs, notifySeq := k }

/-- The agent carries out a request for command `c` (R194 to R196): it may begin one, the oldest is `r`, its code names
`c`, its body is long enough and within the frame, and its sender is permitted. -/
def State.carriesOut (s : State) (c : Command) (r : Request) (rest : List Request) : Prop :=
  s.restart = .idle ∧ s.requests = r :: rest ∧ commandOf r.code = some c ∧ c.bodySize ≤ r.bodyLen ∧
    r.bodyLen ≤ r.data.length - 8 ∧ permitted s c r.src r.body = true

/-- The step by which the agent carries out a request for a command (95_what_each_step_holds.md). -/
def Command.instr : Command → Instr
  | .identify => .identify
  | .readStatus => .readStatus
  | .readTable => .readTable
  | .writeTable => .writeTable
  | .switchBank => .switchBank
  | .stepTime => .stepTime
  | .setTime => .setTime
  | .setTrim => .setTrim
  | .armOneshot => .armOneshot
  | .disarmOneshot => .disarmOneshot
  | .readCapture => .readCapture
  | .clearEvents => .clearEvents
  | .restart => .restart

/-- The state that a list of commands leads to, each carried out in turn. -/
def State.carry (s : State) (cs : List Instr) : State :=
  cs.foldl
    (fun t c =>
      match exec c t with
      | .next u => u
      | _ => t) s

/-- The commands of the events that a tick reaches, and the request for a switch or its cancel, which can come between a
tick and the events of it (R149, R153). -/
def actsInTick : Instr → Bool
  | .cadenceEdge _ => true
  | .pulseEnd _ => true
  | .oneshotFire _ => true
  | .atTimeReached => true
  | .labelWordComplete _ => true
  | .switchBank => true
  | _ => false

/-- R158, R159: the level of line `i` by the table of sources: HIGH when the source is active and the polarity NORMAL,
or the source inactive and the polarity INVERTED. -/
def State.lineLevel (s : State) (i : Fin 12) : Bool :=
  let r : Route := s.banks[s.active].lines[i]
  let on : Bool :=
    match r.source with
    | .low => false
    | .high => true
    | .cadence n => s.cad[n].pulse.isSome
    | .labelData m => s.ser[m].data
    | .labelClock m => s.ser[m].clk
    | .locked => s.servo.locked
    | .traced => s.servo.traced
    | .backup => decide (s.clock ≠ .normal)
  if r.polarity = .normal then on else !on

/-- R159: the outputs of a tick are held back only while an event that it reaches is still to be taken. -/
abbrev State.viewOk (s : State) : Prop := s.view.isSome = true → s.eventReached = true

/-- R165, R166, R167, R170: `t` differs from `s` at the serializers as the edge of index `k` and time `e` of cadence `n`
makes them differ. One that is bound and ENABLED composes the edge's word when it is IDLE, its step-seen flag carried in
the word and cleared, and keeps its own with LABEL_OVERRUN when SHIFTING; any other is untouched. -/
abbrev State.serializersTold (s t : State) (n : Fin 8) (k e : Nat) : Prop :=
  ∀ m : Fin 2,
    let c := s.label m
    let x := s.ser[m]
    let same : Prop := t.ser[m].word = x.word ∧ t.ser[m].stepSeen = x.stepSeen
    let quiet : Prop := t.isPending (.labelOverrun m) = s.isPending (.labelOverrun m)
    (c.enable = false ∨ c.cadence ≠ n → same ∧ quiet) ∧
      (c.enable = true → c.cadence = n →
        ((∀ w, x.word = some w → c.delay + 96 * c.period ≤ w.count) →
          t.ser[m].stepSeen = false ∧ quiet ∧
            t.ser[m].word =
              some { bits := composeBits s n k e x.stepSeen, index := k, stepSeen := x.stepSeen, count := 0 }) ∧
          ∀ w, x.word = some w → w.count < c.delay + 96 * c.period →
            same ∧ t.isPending (.labelOverrun m) = true)

/-- R128: at the present tick no output of cadence `n` has ended, and none whose end time is reached is about to end. -/
abbrev State.mayFire (s : State) (n : Fin 8) : Prop :=
  s.cad[n].endedNow = false ∧ ∀ x, s.cad[n].pulse = some x → s.time.total < x * 2 ^ 32

/-- R76: the probe template that a Mark's frame gives, field by field. -/
abbrev Template.isOf (tpl : Template) (c : Copy) : Prop :=
  let content := contentOf c.bytes
  let f := factsOf content
  tpl.station = f.src ∧ tpl.tci = f.tci ∧ (c.carrier ≠ .udp4 → tpl.net = .l2 f.etherType) ∧
    (c.carrier = .udp4 →
      ∃ u ∈ f.udp,
        tpl.net =
          .udp4 (BitVec.ofNat 32 (fieldAt content (f.dataPos + 12) 4)) (byteAt content (f.dataPos + 1)) u.dstPort)

/-- All that the manual says holds at every moment, together. -/
structure State.Inv (s : State) : Prop where
  time : s.timeOk
  ports : s.portsOk
  requests : s.requestsOk
  residence : s.residenceOk
  exchange : s.exchangeOk
  adjust : s.adjustOk
  counts : s.countsOk
  lock : s.lockOk
  traced : s.tracedOk
  names : s.namesOk
  one : s.oneSelected
  best : s.bestSelected
  servoSource : s.servoSourceOk
  records : s.recordsOk
  cadences : s.cadencesOk
  servoCfg : s.servoCfg.legal
  small : s.smallRecordsOk
  switch : s.switchOk
  rings : s.ringsOk
  lines : s.linesOk
  classify : s.classifyOk
  groups : s.groupsOk
  clock : s.clock.countOk = true
  view : s.viewOk

end Sys2Proof.Machine
end

