-- ==== Sys2Proof/Certificates/Slice0/Obligations.lean ====
section
/-!
DEFINITION. Certificates/Slice0/Obligations.lean: the statements for the provers. Each docstring names the rules whose
words it states; OBLIGATIONS.json lists the same statements with their titles.
-/

section

open Sys2Proof Sys2Proof.Machine

/-! ### The machine as a whole -/

/-- A step takes the command at the front of the queue and carries it out with the queue's rest; on an empty queue the
part idles. Both are the model's choice (assumption 2). -/
def Obligations.StepRunsFrontCommand : Prop :=
  ∀ (c : Instr) (rest : List Instr) (s : State),
    (s.pending = c :: rest → step s = exec c { s with pending := rest }) ∧ (s.pending = [] → step s = .next s)

/-- No command changes the queue of waiting commands or the station address (Signal summary: it stands in one-time
memory and is kept through both resets). R159, R168: the pins and the outputs of the serializers change only at ticks
and at a cold reset. A tick that reaches events (an edge, a firing, the end of an output, an AT_TIME switch) holds back
what it will show until they are taken: outside the tick commands and a cold reset, no command moves a pin or an output
while nothing is held back, or while an event of the tick is still to come; of what is held back, a command that is no
event changes nothing but the output of a cadence that a rewrite ends, and with the last event the outputs take it. That
events of a tick are commands of their own behind it, and that the outputs wait for them, is the model's (assumption 6),
and so is the queue (assumption 2). -/
def Obligations.CommandsKeepQueueStationAndPins : Prop :=
  ∀ (c : Instr) (s t : State), exec c s = .next t →
    t.pending = s.pending ∧ t.station = s.station ∧
      ((∀ inp, c ≠ .tick inp) → (∀ inp, c ≠ .stepTick inp) → (∀ n inp, c ≠ .clockLoss n inp) → c ≠ .coldReset →
        let still : Prop :=
          t.pins = s.pins ∧ ∀ m : Fin 2, t.ser[m].data = s.ser[m].data ∧ t.ser[m].clk = s.ser[m].clk
        (s.view = none → t.view = none ∧ still) ∧
          (t.view ≠ none → still) ∧
          ∀ v, s.view = some v → (actsInTick c = false ∨ c = .switchBank) →
            ∃ w : TickView,
              (c ≠ .writeTable → w = v) ∧ w = { v with active := w.active } ∧
                (∀ n : Fin 8, w.active[n] = v.active[n] ∨ (w.active[n] = false ∧ t.cad[n].pulse = none)) ∧
                ((t.view = some w ∧ still) ∨
                  (t.view = none ∧ t.eventReached = false ∧ (∀ i : Fin 12, t.pins[i] = (w.lines[i]).level w) ∧
                    ∀ m : Fin 2, (t.ser[m].data, t.ser[m].clk) = w.ser[m])))

/-- The part right after a cold reset meets every predicate of Safety.lean. -/
def Obligations.ResetMeetsInvariants : Prop := State.reset.Inv

/-! ### What every step keeps -/

/-- R92: the nanoseconds lie in 0 to 999,999,999 and the seconds in 0 to 2^48 − 1 after every step. R101, R105, R110:
the adjustment stays within ± max adjust, which never exceeds 100,000 ppb, and the integral within ± max adjust ×
65,536. -/
def Obligations.CountersAndAdjustmentStayInRange : Prop :=
  (∀ s t : State, s.timeOk → step s = .next t → t.timeOk) ∧
    ∀ s t : State, s.adjustOk → step s = .next t → t.adjustOk

/-- R1, R5, R7, R10, R11, R15, R48: the port records, the queues' capacities and the empty DOWN port are kept by every
step; a departure whose frame is still being sent left by an UP port that has a frame in transmission; and a frame in
transmission whose bytes the corrector has yet to give is a departure that waits, so that the answer comes. That a
departure waits for the tick is the model's (assumption 14). -/
def Obligations.PortsStayLegal : Prop :=
  ∀ s t : State, s.portsOk → step s = .next t → t.portsOk

/-- R193, R41, R80, R83, R105 to R107: the capacities of the request queue, the residence table, the pending-probe
list, the delay window and the frequency history, and the distinct keys of residence records and of pending probes,
are kept by every step. -/
def Obligations.TableCapacitiesHold : Prop :=
  ∀ s t : State,
    s.requestsOk ∧ s.residenceOk ∧ s.exchangeOk ∧ s.countsOk → step s = .next t →
      t.requestsOk ∧ t.residenceOk ∧ t.exchangeOk ∧ t.countsOk

/-- R120, R121, R124: every stored record stays legal, the state of every cadence stays that of its record's mode, and a
held edge time stays floor(k × den × 10^9 / num) + φ for the held index. -/
def Obligations.CadencesMatchRecords : Prop :=
  ∀ s t : State, s.recordsOk ∧ s.cadencesOk → step s = .next t → t.recordsOk ∧ t.cadencesOk

/-- R56, R64, R109: names stay distinct; at most one record is selected, it is ELIGIBLE and the best; ACQUIRE and TRACK
go with a selection, HOLDOVER and FREE on TCLK with none, and BACKUP with FREE. -/
def Obligations.SelectionMatchesServo : Prop :=
  ∀ s t : State,
    s.namesOk ∧ s.oneSelected ∧ s.bestSelected ∧ s.servoSourceOk → step s = .next t →
      t.namesOk ∧ t.oneSelected ∧ t.bestSelected ∧ t.servoSourceOk

/-- R102, R103, R106, R107, R108: LOCKED goes with the lock-held flag, that flag with TRACK and the traced flag, FREE
with counts of 0, and LOCKED clear with an outlier count of 0, after every step. That the count is 0 in HOLDOVER too is
read from R106 by inference (DEDUCED, assumption 24). -/
def Obligations.LockFlagsAgree : Prop :=
  ∀ s t : State, s.lockOk ∧ s.tracedOk → step s = .next t → t.lockOk ∧ t.tracedOk

/-- R147, R178, R181, R182, R189: a pending switch names another bank than the active one; the rings and the line states
agree; an unused qualifier is idle. R159: the outputs of a tick are held back only while an event that the tick reaches
is still to be taken; that they are held back at all is the model's (assumption 6). -/
def Obligations.SwitchAndLinesStayLegal : Prop :=
  (∀ s t : State, s.switchOk ∧ s.ringsOk ∧ s.linesOk → step s = .next t → t.switchOk ∧ t.ringsOk ∧ t.linesOk) ∧
    ∀ s t : State, s.viewOk → step s = .next t → t.viewOk

/-- R32, R54, R77, R101, R158, R164, R177, R201, R204, R207: the tables a manager writes hold only values their rules
accept, and an IDLE group's reported-during-holdoff flag is clear.
The last part, that the restore qualification counts no further than 1,250,000 ticks, is the model's choice (assumption
13). -/
def Obligations.WrittenTablesStayLegal : Prop :=
  ∀ s t : State,
    s.classifyOk ∧ s.servoCfg.legal ∧ s.smallRecordsOk ∧ s.groupsOk ∧ s.clock.countOk = true → step s = .next t →
      t.classifyOk ∧ t.servoCfg.legal ∧ t.smallRecordsOk ∧ t.groupsOk ∧ t.clock.countOk = true

/-! ### Frame path -/

/-- R203: raising an event whose flag is set changes nothing; otherwise the flag is set, enabled or not. No flag is
cleared, no other flag is set but a QUEUE_DROP that a discarded notification raises, and nothing but the groups, the
notification sequence and the ordinary queues changes. The table of 11.5: the group of each of the 32 events and its
position in the group's masks, where its pending flag and its enable flag are the bit of that position (R209). -/
def Obligations.RaisedEventIsPending : Prop :=
  ∀ (e : Event) (s : State),
    (s.isPending e = true → raise e s = s) ∧
      (raise e s).isPending e = true ∧
      (∀ f : Event, s.isPending f = true → (raise e s).isPending f = true) ∧
      (∀ f : Event, f ≠ e → (∀ p, f ≠ .queueDrop p) → (raise e s).isPending f = s.isPending f) ∧
      (s.isPending e = false → s.isEnabled e = false →
        raise e s =
          s.setGroup e.group
            { s.groups[e.group] with pending := s.groups[e.group].pending ||| (1#8 <<< e.pos) }) ∧
      s.notifierFrame (raise e s) ∧
      s.isPending e = s.groups[e.group].pending.getLsbD e.pos ∧
      s.isEnabled e = s.notifyCfg[e.group].enable.getLsbD e.pos ∧
      let table : List (List Event) :=
        [[.lockGained, .lockLost, .holdoverEntered, .holdoverExpired, .timeStepped, .sourceChanged, .clockLoss,
            .clockRestored],
          [.realigned 0, .realigned 1, .realigned 2, .realigned 3, .realigned 4, .realigned 5, .realigned 6,
            .realigned 7],
          [.phaseAlarm 0, .phaseAlarm 1, .phaseAlarm 2, .phaseAlarm 3, .captureFull 0, .captureFull 1, .captureFull 2,
            .captureFull 3],
          [.residenceMiss, .queueDrop .n, .queueDrop .d, .labelOverrun 0, .labelOverrun 1, .bankSwitched, .oneshotDone,
            .oneshotMissed]]
      ∀ i j : Nat, (table[i]?.bind fun row => row[j]?) = some e ↔ e.group.val = i ∧ e.pos = j

/-- R204, R205: what a group does with an enabled event that becomes pending: nothing without a destination; a
notification, with HOLDOFF entered when the holdoff is above 0; in HOLDOFF the reported flag. A notification for a DOWN
port is discarded, and one at a full queue is discarded with QUEUE_DROP; the group proceeds as though it had been sent
and its sequence number is spent. The last clause gives the bytes of the notification. That HOLDOFF is entered before
the discard is the model's (assumption 8). -/
def Obligations.EnabledEventNotifies : Prop :=
  ∀ (e : Event) (s : State), s.isPending e = false → s.isEnabled e = true →
    let g := e.group
    let x := s.groups[g]
    let c := s.notifyCfg[g]
    let pend := x.pending ||| (1#8 <<< e.pos)
    (x.st = .idle → c.dest = none → raise e s = s.setGroup g { x with pending := pend }) ∧
      (∀ d, x.st = .idle → c.dest = some d →
        let s1 :=
          s.setGroup g
            { x with pending := pend, st := if c.holdoff = 0 then .idle else .holdoff s.elapsed c.holdoff }
        let s2 : State := { s1 with notifySeq := s.notifySeq + 1 }
        ((s.port c.egress).link = .up → (s.port c.egress).ordinaryQ.length < 32 →
          raise e s =
            s2.setPort c.egress
              { s.port c.egress with
                ordinaryQ :=
                  (s.port c.egress).ordinaryQ ++ [{ bytes := notifyFrame g d s1, origin := .notification }] }) ∧
          ((s.port c.egress).link = .down → raise e s = s2) ∧
          ((s.port c.egress).link = .up → 32 ≤ (s.port c.egress).ordinaryQ.length →
            raise e s = raise (.queueDrop c.egress) s2)) ∧
      (∀ start ms, x.st = .holdoff start ms →
        raise e s = s.setGroup g { x with pending := pend, reported := true }) ∧
      (∀ d, s.timeOk →
        notifyFrame g d s =
          addrBytes d ++ addrBytes s.station ++ [0x9A, 0x3C, 1, 3] ++ beBytes 2 s.notifySeq.toNat ++ [0, 0, 0, 13] ++
            [BitVec.ofNat 8 g, x.pending, c.enable] ++ beBytes 6 s.time.sec ++ beBytes 4 s.time.ns ++
            List.replicate 25 0)

/-- R204: when a holdoff has passed, a group that was told of an event meanwhile and has a destination sends a
notification and restarts its holdoff; otherwise it becomes IDLE. Before that nothing happens. The notification is
discarded at a DOWN port, and at a full queue with QUEUE_DROP, and the holdoff restarts as though it had been sent
(R205). R206: CLEAR_EVENTS clears the pending flags at the
positions set in the mask and answers the mask that stands; a group outside 0 to 3 is BAD_INDEX.
That BAD_INDEX has an empty body is the model's (assumption 16), and so is that the flag is cleared before the
notification is sent (assumption 8). -/
def Obligations.HoldoffEndsAndEventsClear : Prop :=
  (∀ (g : Fin 4) (s : State),
    s.groups[g].st = .idle ∨
        (∃ start ms, s.groups[g].st = .holdoff start ms ∧ (s.elapsed - start).toNat ≤ ms * 256000000) →
      exec (.holdoffEnd g) s = .next s) ∧
  (∀ (g : Fin 4) (s : State) (start : Elapsed) (ms : Nat), s.groups[g].st = .holdoff start ms →
    ms * 256000000 < (s.elapsed - start).toNat →
    let x := s.groups[g]
    let c := s.notifyCfg[g]
    (∀ d, x.reported = true → c.dest = some d →
      let s1 := s.setGroup g { x with st := .holdoff s.elapsed c.holdoff, reported := false }
      let s2 : State := { s1 with notifySeq := s.notifySeq + 1 }
      ((s.port c.egress).link = .up → (s.port c.egress).ordinaryQ.length < 32 →
        exec (.holdoffEnd g) s =
          .next
            (s2.setPort c.egress
              { s.port c.egress with
                ordinaryQ :=
                  (s.port c.egress).ordinaryQ ++ [{ bytes := notifyFrame g d s1, origin := .notification }] })) ∧
        ((s.port c.egress).link = .down → exec (.holdoffEnd g) s = .next s2) ∧
        ((s.port c.egress).link = .up → 32 ≤ (s.port c.egress).ordinaryQ.length →
          exec (.holdoffEnd g) s = .next (raise (.queueDrop c.egress) s2))) ∧
      (x.reported = false ∨ c.dest = none →
        exec (.holdoffEnd g) s = .next (s.setGroup g { x with st := .idle, reported := false }))) ∧
    ∀ (s : State) (r : Request) (rest : List Request), s.carriesOut .clearEvents r rest →
      (∀ g : Fin 4, (byteAt r.body 0).toNat = g.val →
        let x := s.groups[g]
        let pend := x.pending &&& ~~~ (byteAt r.body 1)
        exec .clearEvents s =
          .next
            (respond r
              { st := .ok, body := [pend],
                after := State.setGroup { s with requests := rest } g { x with pending := pend } })) ∧
        (4 ≤ (byteAt r.body 0).toNat →
          exec .clearEvents s =
            .next (respond r { st := .badIndex, body := [], after := { s with requests := rest } }))

/-- R1, R9, R15, R198: a DOWN port goes UP empty and an UP port stays so; an UP port goes DOWN, its queues and the
frames being sent and received lost without an event, a RESTART response among the queued making the warm reset due; a
DOWN port stays so. At the end of a transmission the transmitter is free; R11, R48: no transmission ends whose bytes
the corrector has yet to give. In every case a departure that waits for its egress stamp, and a wholly received frame
that waits for its ingress stamp, stand (that they wait for the next tick, and that a transmission waits for the
corrector's answer, is the model's, assumption 14). -/
def Obligations.LinkAndTransmitterChanges : Prop :=
  ∀ (p : Port) (s : State),
    let x := s.port p
    let quiet : State :=
      { s with departing := s.departing.map fun d => if d.port = p then { d with sending := false } else d }
    (x.link = .down →
      exec (.linkUp p) s =
        .next (s.setPort p { x with link := .up, timingQ := [], ordinaryQ := [], tx := none, receiving := none }) ∧
        exec (.linkDown p) s = .next s) ∧
      (x.link = .up →
        let t := quiet.setPort p { x with link := .down, timingQ := [], ordinaryQ := [], tx := none, receiving := none }
        exec (.linkUp p) s = .next s ∧
          ((∀ e ∈ x.timingQ ++ x.ordinaryQ, e.origin ≠ .response true) → exec (.linkDown p) s = .next t) ∧
          ((∃ e ∈ x.timingQ ++ x.ordinaryQ, e.origin = .response true) →
            exec (.linkDown p) s = .next { t with restart := .due })) ∧
      (x.tx = none → exec (.transmitEnd p) s = .next s) ∧
      (∀ f, x.tx = some f → f.wire = none → exec (.transmitEnd p) s = .next s) ∧
      ∀ f b, x.tx = some f → f.wire = some b →
        exec (.transmitEnd p) s = .next (quiet.setPort p { x with tx := none })

/-- R2, R3, R4: a frame of 64 to 2,000 bytes with a correct FCS that was not cut short is accepted: it is handed to the
classifier with the stamp the port took, or, when it began after the latest tick, waits for the stamp of the next; any
other is discarded with its stamp, and a DOWN port receives nothing (R1). A tick hands the waiting frames to the
classifier in their order, each with a stamp of that tick and its own ingress latency (R5). R11: content followed by
the FCS the part computes has a correct FCS.
How the FCS is computed, and how a command tells in which tick a frame began and which latency it takes, are the
model's (assumptions 4 and 14). -/
def Obligations.FrameReceptionChecks : Prop :=
  (∀ (p : Port) (bytes : List Byte) (cut : Bool) (s : State), (s.port p).link = .up →
    (64 ≤ bytes.length ∧ bytes.length ≤ 2000 ∧ fcsCorrect bytes = true ∧ cut = false →
      (∀ st, (s.port p).receiving = some st →
        exec (.frameReceived p bytes cut) s =
          .next
            (s.setPort p
              { s.port p with
                receiving := none, records := (s.port p).records ++ [{ bytes := bytes, stamp := st }] })) ∧
        ((s.port p).receiving = none →
          exec (.frameReceived p bytes cut) s =
            .next
              (s.setPort p
                { s.port p with
                  unstamped :=
                    (s.port p).unstamped ++ [{ bytes := bytes, latency := (s.port p).ingressLat }] }))) ∧
      (bytes.length < 64 ∨ 2000 < bytes.length ∨ fcsCorrect bytes = false ∨ cut = true →
        exec (.frameReceived p bytes cut) s = .next (s.setPort p { s.port p with receiving := none }))) ∧
    (∀ (p : Port) (bytes : List Byte) (cut : Bool) (s : State), (s.port p).link = .down →
      exec (.frameReceived p bytes cut) s = .next s) ∧
    (∀ (inp : TickIn) (s : State) (p : Port),
      ∃ t : State, exec (.tick inp) s = .next t ∧ (t.port p).unstamped = [] ∧
        (t.port p).records =
          (s.port p).records ++
            (s.port p).unstamped.map fun a =>
              { bytes := a.bytes
                stamp :=
                  { time := t.time.reading - a.latency, elapsed := t.elapsed - BitVec.ofNat 64 a.latency } }) ∧
    ∀ content : List Byte, fcsCorrect (content ++ fcsOf content) = true

/-- R18, R16, R19, R193: a frame to the station or the broadcast address with EtherType 0x9A3C is taken for
management: a request of version 1 with at least 8 bytes of data joins a queue of fewer than 4; any other is
discarded. A frame that is not taken for management gets the disposition of the first entry that matches it; when none
matches, it is forwarded unchanged in the ordinary class to the other port. -/
def Obligations.ClassifierDecides : Prop :=
  ∀ (p : Port) (s : State) (rec : FrameRec) (tail : List FrameRec), (s.port p).records = rec :: tail →
    let content := contentOf rec.bytes
    let f := factsOf content
    let s1 := s.setPort p { s.port p with records := tail }
    let forPart : Prop := (f.dst = s.station ∨ f.dst = 0xFFFFFFFFFFFF#48) ∧ f.etherType = 0x9A3C#16
    (forPart →
      let data := content.drop f.dataPos
      (8 ≤ data.length ∧ byteAt data 0 = 1#8 ∧ byteAt data 1 = 1#8 ∧ s.requests.length < 4 →
        exec (.classifyFrame p) s =
          .next
            { s1 with
              requests := s.requests ++ [{ bytes := rec.bytes, port := p, src := f.src, tci := f.tci }] }) ∧
        (data.length < 8 ∨ byteAt data 0 ≠ 1#8 ∨ byteAt data 1 ≠ 1#8 ∨ 4 ≤ s.requests.length →
          exec (.classifyFrame p) s = .next s1)) ∧
      (¬ forPart →
        (∀ i : Fin 32, s.classify[i].isMatch p content f = true →
          (∀ j : Fin 32, j < i → s.classify[j].isMatch p content f = false) →
          exec (.classifyFrame p) s =
            .next (applyDisposition p rec (s.classify[i].disposition p content f) s1)) ∧
          ((∀ i : Fin 32, s.classify[i].isMatch p content f = false) →
            exec (.classifyFrame p) s =
              .next
                (arrive (otherPort p) .ordinary { bytes := content, origin := .forwarded rec.stamp none } s1)))

/-- R20 to R25: the outer facts of a frame (destination, at most one tag, EtherType, and the IPv4/UDP layers under the
checks of R21), where a timing header parses for each carrier (R22; behind a second stacked tag there is no L2
position, R20), and when an entry matches. R51, R209: the fields of a timing header at a position, at their offsets. -/
def Obligations.EntriesMatchByTheirFields : Prop :=
  (∀ content : List Byte,
    let f := factsOf content
    let tagged := fieldAt content 12 2 = 0x8100
    f.dst = BitVec.ofNat 48 (fieldAt content 0 6) ∧ f.src = BitVec.ofNat 48 (fieldAt content 6 6) ∧
      (tagged →
        f.tci = some (BitVec.ofNat 16 (fieldAt content 14 2)) ∧ f.dataPos = 18 ∧
          f.etherType = BitVec.ofNat 16 (fieldAt content 16 2)) ∧
      (¬ tagged → f.tci = none ∧ f.dataPos = 14 ∧ f.etherType = BitVec.ofNat 16 (fieldAt content 12 2)) ∧
      (let data := content.drop f.dataPos
        let ihl := (byteAt data 0).toNat % 16 * 4
        let total := fieldAt data 2 2
        let udpLen := fieldAt data (ihl + 4) 2
        let layers : Prop :=
          f.etherType = 0x0800#16 ∧ (byteAt data 0).toNat / 16 = 4 ∧ 20 ≤ ihl ∧ ihl ≤ data.length ∧
            ihl + 8 ≤ total ∧ total ≤ data.length ∧ fieldAt data 6 2 % 16384 = 0 ∧ byteAt data 9 = 17#8 ∧
            8 ≤ udpLen ∧ udpLen + ihl ≤ total
        (layers →
          f.udp =
            some
              { dstPort := BitVec.ofNat 16 (fieldAt data (ihl + 2) 2), udpPos := f.dataPos + ihl,
                payPos := f.dataPos + ihl + 8, payLen := udpLen - 8 }) ∧
          (¬ layers → f.udp = none)) ∧
      ∀ pos : Nat,
        let parses (avail : Nat) : Prop :=
          28 ≤ avail ∧ byteAt content (pos + 1) = 2#8 ∧ 28 ≤ fieldAt content (pos + 2) 2 ∧
            fieldAt content (pos + 2) 2 ≤ avail
        (headerPos content f .l2 = some pos ↔
          f.etherType ≠ 0x8100#16 ∧ pos = f.dataPos ∧ parses (content.length - f.dataPos)) ∧
          (headerPos content f .udp4 = some pos ↔ ∃ u ∈ f.udp, pos = u.payPos ∧ parses u.payLen) ∧
          headerPos content f .none ≠ some pos) ∧
    (∀ (content : List Byte) (pos : Nat),
      let h := readHdr content pos
      let signed (w n : Nat) : Int := if n < 2 ^ (w - 1) then (n : Int) else (n : Int) - 2 ^ w
      h.kind = (byteAt content pos).toNat ∧ h.len = fieldAt content (pos + 2) 2 ∧ h.domain = byteAt content (pos + 4) ∧
        h.interval = signed 8 (byteAt content (pos + 5)).toNat ∧ h.corr = signed 64 (fieldAt content (pos + 8) 8) ∧
        h.sender = BitVec.ofNat 64 (fieldAt content (pos + 16) 8) ∧
        h.portNo = BitVec.ofNat 16 (fieldAt content (pos + 24) 2) ∧
        h.seq = BitVec.ofNat 16 (fieldAt content (pos + 26) 2) ∧
        (pos + 8 ≤ content.length →
          (h.twoStep = true ↔ fieldAt content (pos + 6) 2 % 2 = 1) ∧
            (h.civilValid = true ↔ fieldAt content (pos + 6) 2 / 2 % 2 = 1))) ∧
    (∀ (b : List Byte) (off n : Nat), fieldAt b off 0 = 0 ∧
      (off + n < b.length → fieldAt b off (n + 1) = fieldAt b off n * 256 + (byteAt b (off + n)).toNat)) ∧
    ∀ (e : ClassEntry) (p : Port) (content : List Byte) (f : Facts),
      e.isMatch p content f = true ↔
        e.valid = true ∧ (p = .n → e.portN = true) ∧ (p = .d → e.portD = true) ∧
          (∀ x ∈ e.dest, f.dst &&& x.2 = x.1 &&& x.2) ∧ (e.vlan = some .untagged → f.tci = none) ∧
          (∀ v, e.vlan = some (.id v) → ∃ t ∈ f.tci, t.setWidth 12 = v) ∧
          (∀ x ∈ e.etherType, f.etherType = x) ∧ (∀ x ∈ e.udpPort, ∃ u ∈ f.udp, u.dstPort = x) ∧
          (e.carrier = .udp4 → f.udp.isSome = true) ∧
          ((e.kinds.isSome = true ∨ e.domain.isSome = true) →
            ∃ pos, headerPos content f e.carrier = some pos ∧
              (∀ k ∈ e.kinds,
                1 ≤ (readHdr content pos).kind ∧ k.getLsbD ((readHdr content pos).kind - 1) = true) ∧
              ∀ d ∈ e.domain, (readHdr content pos).domain = d)

/-- R26 to R31: the effect of each action on a frame that matched, with a timing header at position `q` or with none
that parses. -/
def Obligations.ActionsGiveDispositions : Prop :=
  ∀ (e : ClassEntry) (p : Port) (r : FrameRec) (s : State),
    let content := contentOf r.bytes
    let f := factsOf content
    let go := applyDisposition p r (e.disposition p content f) s
    let sendAs (m : Option CorrMark) (t : State) :=
      arrive (otherPort p) e.cls { bytes := content, origin := .forwarded r.stamp m } t
    let markOf (q : Nat) : CorrMark :=
      { carrier := e.carrier, hdrPos := q, udpPos := if e.carrier = .udp4 then f.udp.map UdpFacts.udpPos else none }
    let copied (q : Nat) : State :=
      { s with
        copies :=
          s.copies ++
            [{ bytes := r.bytes, stamp := r.stamp, carrier := e.carrier, hdrPos := q, vlan := f.tci.map vlanId }] }
    (e.action = .forward → go = sendAs none s) ∧
      (e.action = .drop → go = s) ∧
      (headerPos content f e.carrier = none →
        (e.action = .forwardCorrect ∨ e.action = .copyCorrect → go = sendAs none s) ∧
        (e.action = .takeTiming → go = s)) ∧
      (∀ q, headerPos content f e.carrier = some q →
        (e.action = .forwardCorrect → go = sendAs (some (markOf q)) s) ∧
        (e.action = .copyCorrect → p = .n → go = sendAs (some (markOf q)) (copied q)) ∧
        (e.action = .copyCorrect → p = .d → go = sendAs (some (markOf q)) s) ∧
        (e.action = .takeTiming → p = .n → go = copied q) ∧ (e.action = .takeTiming → p = .d → go = s))

/-- R8: a frame that arrives at a queue is discarded at a DOWN port, joins at the tail of a queue with room, and is
discarded at a full queue with QUEUE_DROP. R9, R10, R11, R198: a free transmitter of an UP port sends the oldest
timing-class frame, otherwise the oldest ordinary frame; a frame whose egress stamp no block takes (a forwarded one
without a correction mark, a response, a notification) leaves with its bytes and their FCS; the departure of a RESTART
response makes the warm reset due. A transmitter that is busy, a DOWN port, and a port with empty queues start
nothing. -/
def Obligations.EgressQueuesFillAndEmpty : Prop :=
  (∀ (p : Port) (e : EgressEntry) (s : State),
    ((s.port p).link = .down → arrive p .timing e s = s ∧ arrive p .ordinary e s = s) ∧
      ((s.port p).link = .up →
        ((s.port p).timingQ.length < 8 →
          arrive p .timing e s = s.setPort p { s.port p with timingQ := (s.port p).timingQ ++ [e] }) ∧
        (8 ≤ (s.port p).timingQ.length → arrive p .timing e s = raise (.queueDrop p) s) ∧
        ((s.port p).ordinaryQ.length < 32 →
          arrive p .ordinary e s = s.setPort p { s.port p with ordinaryQ := (s.port p).ordinaryQ ++ [e] }) ∧
        (32 ≤ (s.port p).ordinaryQ.length → arrive p .ordinary e s = raise (.queueDrop p) s))) ∧
    (∀ (p : Port) (s : State),
      (s.port p).link = .down ∨ (s.port p).tx ≠ none ∨ ((s.port p).timingQ = [] ∧ (s.port p).ordinaryQ = []) →
        exec (.transmitStart p) s = .next s) ∧
    ∀ (p : Port) (s : State) (e : EgressEntry) (rest : List EgressEntry), (s.port p).link = .up →
      (s.port p).tx = none → (∀ i m, e.origin ≠ .forwarded i (some m)) → (∀ q, e.origin ≠ .probe q) →
      let out : Option TxFrame := some { wire := some (e.bytes ++ fcsOf e.bytes), origin := e.origin }
      let after (t : State) : State := if e.origin = .response true then { t with restart := .due } else t
      ((s.port p).timingQ = e :: rest →
        exec (.transmitStart p) s = .next (after (s.setPort p { s.port p with timingQ := rest, tx := out }))) ∧
        ((s.port p).timingQ = [] → (s.port p).ordinaryQ = e :: rest →
          exec (.transmitStart p) s = .next (after (s.setPort p { s.port p with ordinaryQ := rest, tx := out })))

/-- R9, R10, R12, R80, R89: a departing Probe leaves with its bytes and their FCS and waits, with the egress latency in
force, for its egress stamp; the next tick, or the tick of a clock loss, reads the stamp from the counters it leaves,
adds that latency, and makes the pending-probe record, unless the stamp is earlier than the step boundary plus
16,777,216 units. That the hand-over comes in the command of that tick is the model's (assumption 14). -/
def Obligations.ProbeDepartureIsRecorded : Prop :=
  (∀ (s : State) (e : EgressEntry) (rest : List EgressEntry) (seq : BitVec 16), s.portN.link = .up →
    s.portN.tx = none → s.portN.timingQ = e :: rest → e.origin = .probe seq →
    exec (.transmitStart .n) s =
      .next
        { s with
          portN :=
            { s.portN with
              timingQ := rest
              tx := some { wire := some (e.bytes ++ fcsOf e.bytes), origin := e.origin } }
          departing :=
            s.departing ++ [{ port := .n, entry := e, latency := s.portN.egressLat, sending := true }] }) ∧
    ∀ (c : Instr) (inp : TickIn) (s : State) (d : Departure) (seq : BitVec 16), s.departing = [d] →
      d.entry.origin = .probe seq →
      (c = .tick inp ∧ s.steps = []) ∨ (∃ n, c = .clockLoss n inp ∧ s.clock = .normal) →
      ∃ t : State, exec c s = .next t ∧ t.departing = [] ∧ t.portN.tx = s.portN.tx ∧ t.portD.tx = s.portD.tx ∧
        let sent : Elapsed := t.elapsed + BitVec.ofNat 64 d.latency
        let t3 : Int := t.time.reading + d.latency
        (s.exch.boundary = none ∨
            (∃ b, s.exch.boundary = some b ∧
              ((b + 16777216#64 - sent).toNat = 0 ∨ 2 ^ 63 < (b + 16777216#64 - sent).toNat)) →
          t.exch =
            { s.exch with probes := joinProbe { seq := seq, t3 := t3, sent := sent } s.exch.probes }) ∧
          (∀ b, s.exch.boundary = some b → 1 ≤ (b + 16777216#64 - sent).toNat →
            (b + 16777216#64 - sent).toNat ≤ 2 ^ 63 → t.exch = s.exch)

/-- R10, R11, R36, R37, R39, R40, R42 to R44, R48: a frame with a correction mark that begins to be sent waits, with the
egress latency in force, for its egress stamp; the next tick, or the tick of a clock loss, reads the stamp and the
corrector acts by the kind, the two-step flag and the length field of the timing header; a frame still being sent
leaves with the bytes the corrector answers and their FCS. R46: of two departures that wait, on whichever ports, the
one whose transmission started first reaches the residence table first: a Follow then finds no record of its own
direction behind the Mark of its key, or finds one before it, and of two Marks the second joins last.
That the hand-over comes in the command of that tick is the model's (assumption 14). -/
def Obligations.CorrectorActsByKind : Prop :=
  (∀ (p : Port) (s : State) (e : EgressEntry) (rest : List EgressEntry) (ing : Stamp) (mark : CorrMark),
    (s.port p).link = .up → (s.port p).tx = none → e.origin = .forwarded ing (some mark) →
    let x : PortState := { s.port p with tx := some { wire := none, origin := e.origin } }
    let s1 : State :=
      { s with
        departing :=
          s.departing ++ [{ port := p, entry := e, latency := (s.port p).egressLat, sending := true }] }
    ((s.port p).timingQ = e :: rest →
      exec (.transmitStart p) s = .next (s1.setPort p { x with timingQ := rest })) ∧
      ((s.port p).timingQ = [] → (s.port p).ordinaryQ = e :: rest →
        exec (.transmitStart p) s = .next (s1.setPort p { x with ordinaryQ := rest }))) ∧
  ∀ (c : Instr) (inp : TickIn) (s : State), c = .tick inp ∨ (∃ n, c = .clockLoss n inp ∧ s.clock = .normal) →
    let own (t : State) (d : Departure) (ing : Stamp) (mark : CorrMark) : ResRec :=
      let h := readHdr d.entry.bytes mark.hdrPos
      let sent : Elapsed := t.elapsed + BitVec.ofNat 64 d.latency
      { sender := h.sender, portNo := h.portNo, seq := h.seq, domain := h.domain, dir := d.port,
        residence := sent - ing.elapsed, created := sent }
    (∀ (d : Departure) (ing : Stamp) (mark : CorrMark), s.departing = [d] →
      d.entry.origin = .forwarded ing (some mark) →
      ∃ t : State, exec c s = .next t ∧ t.departing = [] ∧
        (t.port (otherPort d.port)).tx = (s.port (otherPort d.port)).tx ∧
        let bytes := d.entry.bytes
        let h := readHdr bytes mark.hdrPos
        let r := own t d ing mark
        let sends (out : List Byte) : Prop :=
          (t.port d.port).tx =
            if d.sending then (s.port d.port).tx.map fun f => { f with wire := some (out ++ fcsOf out) }
            else (s.port d.port).tx
        (h.len < 38 ∨ (h.kind ≠ 2 ∧ h.kind ≠ 3 ∧ h.kind ≠ 4) → sends bytes ∧ t.residence = s.residence) ∧
          (38 ≤ h.len → h.kind = 2 → h.twoStep = true →
            sends bytes ∧ t.residence = joinResidence r s.residence) ∧
          (38 ≤ h.len → (h.kind = 2 ∧ h.twoStep = false) ∨ h.kind = 4 →
            sends (correctFrame bytes mark r.residence) ∧ t.residence = s.residence) ∧
          (∀ x, 38 ≤ h.len → h.kind = 3 →
            (s.residence.find? fun y => y.sameKey r && y.dir == d.port) = some x →
            sends (correctFrame bytes mark x.residence) ∧
              t.residence = s.residence.filter fun y => !(y.sameKey r && y.dir == d.port)) ∧
          (38 ≤ h.len → h.kind = 3 → (∀ y ∈ s.residence, ¬ (y.sameKey r = true ∧ y.dir = d.port)) →
            sends bytes ∧ t.residence = s.residence ∧ t.isPending .residenceMiss = true)) ∧
    ∀ (a b : Departure) (ia ib : Stamp) (ma mb : CorrMark), s.departing = [a, b] →
      a.entry.origin = .forwarded ia (some ma) → b.entry.origin = .forwarded ib (some mb) →
      let ha := readHdr a.entry.bytes ma.hdrPos
      let hb := readHdr b.entry.bytes mb.hdrPos
      38 ≤ ha.len → 38 ≤ hb.len →
      ∃ t : State, exec c s = .next t ∧ t.departing = [] ∧
        let ra := own t a ia ma
        let rb := own t b ib mb
        (ha.kind = 2 → ha.twoStep = true → hb.kind = 2 → hb.twoStep = true →
          t.residence = joinResidence rb (joinResidence ra s.residence)) ∧
          (ra.sameKey rb = true → a.port ≠ b.port →
            (ha.kind = 2 → ha.twoStep = true → hb.kind = 3 →
              t.residence = joinResidence ra s.residence ∧ t.isPending .residenceMiss = true) ∧
              (ha.kind = 3 → hb.kind = 2 → hb.twoStep = true →
                t.residence =
                  joinResidence rb (s.residence.filter fun y => !(y.sameKey ra && y.dir == a.port))))

/-- R38, R47, R48: a correction keeps the length, adds the residence to the correction field modulo 2^64, and changes
no byte outside that field and, under UDP4, the UDP checksum, which is updated for the 16-bit words of the datagram
that the field occupies. A checksum of zero stays zero; otherwise the new checksum with the new words makes the same
one's complement sum, modulo 65,535, as the old checksum with the old words, and it is never sent as zero. -/
def Obligations.CorrectionChangesOnlyItsFields : Prop :=
  (∀ (bytes : List Byte) (mark : CorrMark) (res : BitVec 64), mark.hdrPos + 16 ≤ bytes.length →
    (∀ u ∈ mark.udpPos, u + 8 ≤ mark.hdrPos) →
    let out := correctFrame bytes mark res
    out.length = bytes.length ∧
      correctionField out mark.hdrPos = correctionField bytes mark.hdrPos + res ∧
      (∀ u ∈ mark.udpPos,
        let rel := mark.hdrPos + 8 - u
        let words (x : List Byte) : List Byte := slice x (u + rel / 2 * 2) ((rel % 2 + 9) / 2 * 2)
        fieldAt out (u + 6) 2 = updateChecksum (fieldAt bytes (u + 6) 2) (words bytes) (words out)) ∧
      ∀ i : Nat, i < mark.hdrPos + 8 ∨ mark.hdrPos + 16 ≤ i → (∀ u ∈ mark.udpPos, i ≠ u + 6 ∧ i ≠ u + 7) →
        out[i]? = bytes[i]?) ∧
    ∀ (c : Nat) (old new : List Byte), c < 65536 →
      (c = 0 → updateChecksum c old new = 0) ∧
        (c ≠ 0 →
          1 ≤ updateChecksum c old new ∧ updateChecksum c old new ≤ 65535 ∧
            (updateChecksum c old new + onesSum new) % 65535 = (c + onesSum old) % 65535)

/-- R42, R80: a record joins as the newest: beside the others while there is room, in place of the record of the same
key, or in place of the oldest of a full table. R45, R81: a residence record and a pending-probe record leave when the
elapsed counter is more than 1 s past their reading, and are kept at exactly 1 s. A difference of 2^63 or more is a
reading ahead of the counter (DEDUCED, assumption 15). R61: a source record times out when the counter is more than
multiple × 2^c s past its last heard reading, the interval code clamped to −7 to +7; it is removed, and selection is
rerun when it was selected. At exactly the timeout it stays. -/
def Obligations.RecordsJoinAndLeave : Prop :=
  (∀ (r : ResRec) (t : List ResRec),
    ((∀ x ∈ t, x.sameKey r = false) → t.length < 8 → joinResidence r t = t ++ [r]) ∧
      ((∀ x ∈ t, x.sameKey r = false) → t.length = 8 → joinResidence r t = t.tail ++ [r]) ∧
      (∀ a x b, t = a ++ x :: b → t.length ≤ 8 → x.sameKey r = true → (∀ y ∈ a ++ b, y.sameKey r = false) →
        joinResidence r t = a ++ b ++ [r])) ∧
    (∀ (q : PendingProbe) (t : List PendingProbe),
      ((∀ x ∈ t, x.seq ≠ q.seq) → t.length < 4 → joinProbe q t = t ++ [q]) ∧
        ((∀ x ∈ t, x.seq ≠ q.seq) → t.length = 4 → joinProbe q t = t.tail ++ [q]) ∧
        (∀ a x b, t = a ++ x :: b → t.length ≤ 4 → x.seq = q.seq → (∀ y ∈ a ++ b, y.seq ≠ q.seq) →
          joinProbe q t = a ++ b ++ [q])) ∧
    (∀ (i : Fin 8) (s : State) (r : ResRec), s.residence[i.val]? = some r →
      (256000000000 < (s.elapsed - r.created).toNat → (s.elapsed - r.created).toNat < 2 ^ 63 →
        exec (.residenceRecordAgeOut i) s = .next { s with residence := s.residence.eraseIdx i }) ∧
        ((s.elapsed - r.created).toNat ≤ 256000000000 → exec (.residenceRecordAgeOut i) s = .next s)) ∧
      (∀ (i : Fin 4) (s : State) (q : PendingProbe), s.exch.probes[i.val]? = some q →
        (256000000000 < (s.elapsed - q.sent).toNat → (s.elapsed - q.sent).toNat < 2 ^ 63 →
          exec (.pendingProbeAgeOut i) s =
            .next { s with exch := { s.exch with probes := s.exch.probes.eraseIdx i } }) ∧
          ((s.elapsed - q.sent).toNat ≤ 256000000000 → exec (.pendingProbeAgeOut i) s = .next s)) ∧
      ∀ (i : Fin 8) (s : State) (r : SourceRec), s.sources[i] = some r →
        let c : Int := max (-7) (min 7 r.interval)
        let units : Nat := s.servoCfg.multiple * (2000000000 * 2 ^ (c + 7).toNat)
        (units < (s.elapsed - r.lastHeard).toNat → r.selected = false →
          exec (.sourceTimeout i) s = .next { s with sources := s.sources.set i none }) ∧
          (units < (s.elapsed - r.lastHeard).toNat → r.selected = true →
            exec (.sourceTimeout i) s =
              .next (rerunSelection s.selectedName { s with sources := s.sources.set i none })) ∧
          ((s.elapsed - r.lastHeard).toNat ≤ units → exec (.sourceTimeout i) s = .next s)

/-! ### Time sources -/

/-- R63: one record ranks better than another when, at the first of the nine comparisons in which the two differ, it
holds the lower value; two records of different names can always be ranked, and only one way; the worst of a set is the
one that every other ranks better than. -/
def Obligations.RankingIsTotal : Prop :=
  ∀ a b : SourceRec,
    (a.better b = true ↔
      ∃ i : Fin 9,
        (∀ j : Fin 9, j < i →
          [a.pref1.toNat, a.cls.toNat, a.accuracy.toNat, a.variance.toNat, a.pref2.toNat, a.tsIdent.toNat,
              a.hops.toNat, a.sender.toNat, a.portNo.toNat][j]? =
            [b.pref1.toNat, b.cls.toNat, b.accuracy.toNat, b.variance.toNat, b.pref2.toNat, b.tsIdent.toNat,
              b.hops.toNat, b.sender.toNat, b.portNo.toNat][j]?) ∧
        ([a.pref1.toNat, a.cls.toNat, a.accuracy.toNat, a.variance.toNat, a.pref2.toNat, a.tsIdent.toNat,
              a.hops.toNat, a.sender.toNat, a.portNo.toNat].getD i 0 <
            [b.pref1.toNat, b.cls.toNat, b.accuracy.toNat, b.variance.toNat, b.pref2.toNat, b.tsIdent.toNat,
              b.hops.toNat, b.sender.toNat, b.portNo.toNat].getD i 0)) ∧
      (a.better b = true → b.better a = false) ∧
      (a.sender ≠ b.sender ∨ a.portNo ≠ b.portNo → a.better b = true ∨ b.better a = true) ∧
      ∀ l : List SourceRec, (l.Pairwise fun x y => x.sender ≠ y.sender ∨ x.portNo ≠ y.portNo) → worstOf l = some a →
        a ∈ l ∧ ∀ x ∈ l, x ≠ a → x.better a = true

/-- R53, R57 to R60: what a Beacon that passes the intake does. Ignored: one of 255 hops or more, the part's own, a
repeat. An unknown sender gets a QUALIFYING record of count 1 in the lowest empty slot; in a full table it displaces
the worst unselected record when it ranks better, with selection rerun, and is ignored otherwise. A known sender's
record is refreshed: selection is rerun when a ranking or civil field changes or the record becomes ELIGIBLE, and not
otherwise. R52, R209: the fields of the record stand in the Beacon's body at their offsets. -/
def Obligations.BeaconsMakeAndRefreshRecords : Prop :=
  ∀ (s : State) (c : Copy) (rest : List Copy), s.copies = c :: rest →
    let content := contentOf c.bytes
    let h := readHdr content c.hdrPos
    let b := recordOfBeacon content c.hdrPos h c.stamp
    let s1 : State := { s with copies := rest }
    let put (i : Fin 8) (x : SourceRec) : State := { s1 with sources := s.sources.set i (some x) }
    let unknown : Prop := ∀ j : Fin 8, ∀ a ∈ s.sources[j], ¬ (a.sender = h.sender ∧ a.portNo = h.portNo)
    h.kind = 1 → 46 ≤ h.len → h.domain = s.servoCfg.domain →
    (255 ≤ b.hops.toNat ∨ h.sender = s.identity → exec .timingCopyIntake s = .next s1) ∧
      (b.hops.toNat < 255 → h.sender ≠ s.identity →
        (b.st = .qualifying ∧ b.count = 1 ∧ b.selected = false ∧ b.sender = h.sender ∧ b.portNo = h.portNo ∧
          b.lastSeq = h.seq ∧ b.lastHeard = c.stamp.elapsed ∧ b.civilValid = h.civilValid ∧
          b.interval = h.interval ∧
          let at_ := c.hdrPos
          let civil := fieldAt content (at_ + 44) 2
          b.tsIdent = BitVec.ofNat 64 (fieldAt content (at_ + 28) 8) ∧ b.pref1 = byteAt content (at_ + 36) ∧
            b.cls = byteAt content (at_ + 37) ∧ b.accuracy = byteAt content (at_ + 38) ∧
            b.variance = BitVec.ofNat 16 (fieldAt content (at_ + 39) 2) ∧ b.pref2 = byteAt content (at_ + 41) ∧
            b.hops = BitVec.ofNat 16 (fieldAt content (at_ + 42) 2) ∧
            b.civil = if civil < 32768 then (civil : Int) else (civil : Int) - 65536) ∧
        (∀ i : Fin 8, unknown → s.sources[i] = none → (∀ j : Fin 8, j < i → s.sources[j] ≠ none) →
          exec .timingCopyIntake s = .next (put i b)) ∧
        (∀ (i : Fin 8) (w : SourceRec), unknown → (∀ j : Fin 8, s.sources[j] ≠ none) → s.sources[i] = some w →
          w.selected = false →
          (∀ j : Fin 8, ∀ a ∈ s.sources[j], j ≠ i →
            ¬ (a.sender = w.sender ∧ a.portNo = w.portNo) ∧ (a.selected = false → a.better w = true)) →
          (b.better w = true → exec .timingCopyIntake s = .next (rerunSelection s.selectedName (put i b))) ∧
            (b.better w = false → exec .timingCopyIntake s = .next s1)) ∧
        ∀ (i : Fin 8) (r : SourceRec), s.sources[i] = some r → r.sender = h.sender → r.portNo = h.portNo →
          (∀ j : Fin 8, ∀ a ∈ s.sources[j], a.sender = h.sender ∧ a.portNo = h.portNo → j = i) →
          let fresh : SourceRec :=
            { b with count := min 65535 (r.count + 1), st := .eligible, selected := r.selected }
          let same : Prop := b.rankKey = r.rankKey ∧ b.civil = r.civil ∧ b.civilValid = r.civilValid
          (r.lastSeq = h.seq → exec .timingCopyIntake s = .next s1) ∧
            (r.lastSeq ≠ h.seq → r.st = .eligible → same → exec .timingCopyIntake s = .next (put i fresh)) ∧
            (r.lastSeq ≠ h.seq → r.st = .eligible → ¬ same →
              exec .timingCopyIntake s = .next (rerunSelection s.selectedName (put i fresh))) ∧
            (r.lastSeq ≠ h.seq → r.st = .qualifying → 1 ≤ r.count →
              exec .timingCopyIntake s = .next (rerunSelection s.selectedName (put i fresh))))

/-- R64, R65, R86: a rerun selects the best ELIGIBLE record and no other; of the source table it changes the selected
flags alone, and when the selection stays nothing else; when it changes, SOURCE_CHANGED is raised, the exchange unit
is cleared, its schedule based on the new selection, with its sequence counter and step boundary kept, and the servo
is told of the new selection. The order of these three is the model's (assumption 8). -/
def Obligations.RerunSelectsBestSource : Prop :=
  ∀ (old : Option SourceName) (s : State), s.namesOk →
    let t := rerunSelection old s
    let now := s.bestEligible.map fun r => (r.sender, r.portNo)
    let flagged : State := { s with sources := mapSources (markSelected now) s.sources }
    let interval : Elapsed := BitVec.ofNat 64 (16000000000 * 2 ^ (s.servoCfg.probeCode + 4).toNat)
    let cleared : Exchange :=
      { Exchange.reset with
        sched := if now = none then .stopped else .timed (s.elapsed + interval) s.elapsed
        probeSeq := s.exch.probeSeq
        boundary := s.exch.boundary }
    (∀ b, s.bestEligible = some b →
      b ∈ s.records ∧ b.st = .eligible ∧ ∀ r ∈ s.records, r.st = .eligible → r.better b = false) ∧
      (s.bestEligible = none → ∀ r ∈ s.records, r.st ≠ .eligible) ∧
      t.selectedName = now ∧ t.oneSelected ∧ t.sources = flagged.sources ∧
      (∀ i : Fin 8,
        (s.sources[i] = none → t.sources[i] = none) ∧
          ∀ r, s.sources[i] = some r → ∃ sel : Bool, t.sources[i] = some { r with selected := sel }) ∧
      (now = old → t = flagged) ∧
      (now ≠ old →
        t.isPending .sourceChanged = true ∧ t.exch = cleared ∧
          t = servoSelection now { raise .sourceChanged flagged with exch := cleared })

/-! ### Exchanges -/

/-- R73, R75, R76, R78, R83, R84: a one-step Mark from the selected source, and a Follow that matches the pending Mark,
form m = t2 − t1 − c_m − A; with delay samples in the window the offset θ = m − D follows, D the mean rounded down and
the whole-ns value θ rounded to nearest, halves away from zero, saturated at ±2,147,483,647, and is handed to the servo.
Without samples no offset is formed. The one-step Mark empties the pending-Mark slot and renews the probe template from
its frame; a WAITING schedule then builds its Probe and is timed from the present reading. A Follow leaves template and
schedule alone. The window, the pending probes, the step boundary, the source table, the counters and, but for their
queues, the ports are unchanged. -/
def Obligations.MarkDifferenceGivesOffset : Prop :=
  ∀ (s : State) (c : Copy) (rest : List Copy), s.copies = c :: rest →
    let content := contentOf c.bytes
    let h := readHdr content c.hdrPos
    let t1 : Int := ((fieldAt content (c.hdrPos + 28) 6 * 10 ^ 9 + fieldAt content (c.hdrPos + 34) 4) * 256 : Nat)
    38 ≤ h.len → h.domain = s.servoCfg.domain → s.selectedName = some (h.sender, h.portNo) →
    fieldAt content (c.hdrPos + 34) 4 < 10 ^ 9 →
    let d : Int := Int.fdiv s.exch.window.sum s.exch.window.length
    let interval : Elapsed := BitVec.ofNat 64 (16000000000 * 2 ^ (s.servoCfg.probeCode + 4).toNat)
    let kept (t : State) : Prop :=
      t.exch.sched = s.exch.sched ∧ t.exch.probeSeq = s.exch.probeSeq ∧ t.portN.timingQ = s.portN.timingQ
    let renewed (t : State) : Prop :=
      ∀ tpl : Template, tpl.isOf c →
        t.exch.template = some tpl ∧ ((∀ n l, s.exch.sched ≠ .waiting n l) → kept t) ∧
          ∀ n l, s.exch.sched = .waiting n l →
            t.exch.sched = .timed (s.elapsed + interval) s.elapsed ∧ t.exch.probeSeq = s.exch.probeSeq + 1 ∧
              (s.portN.link = .up → s.portN.timingQ.length < 8 →
                t.portN.timingQ =
                  s.portN.timingQ ++ [{ bytes := probeFrame s tpl, origin := .probe s.exch.probeSeq }])
    let gives (m : Int) (seq : BitVec 16) (more : State → Prop) : Prop :=
      ∃ t : State, exec .timingCopyIntake s = .next t ∧ t.exch.mark = some { m := m, seq := seq } ∧
        t.exch.slot = none ∧ t.exch.window = s.exch.window ∧ t.exch.probes = s.exch.probes ∧
        t.exch.boundary = s.exch.boundary ∧ t.sources = s.sources ∧ t.time = s.time ∧ t.elapsed = s.elapsed ∧
        t.servoCfg = s.servoCfg ∧ t.residence = s.residence ∧ t.copies = rest ∧ more t ∧
        (∀ p : Port,
          t.port p = { s.port p with timingQ := (t.port p).timingQ, ordinaryQ := (t.port p).ordinaryQ }) ∧
        (s.exch.window = [] → t.exch.lastOffset = s.exch.lastOffset ∧ t.servo = s.servo ∧ t.steps = s.steps) ∧
        (s.exch.window ≠ [] →
          ∃ (o : Offset) (w : Int) (u : State), t = servoSample o u ∧ u.servo = s.servo ∧ u.steps = s.steps ∧
            u.servoCfg = s.servoCfg ∧ u.cad = s.cad ∧ u.time = s.time ∧ u.clock = s.clock ∧
            t.exch.lastOffset = some o ∧ o.exact = m - d ∧
            (2 * (w * 256 - o.exact)).natAbs ≤ 256 ∧
            ((2 * (w * 256 - o.exact)).natAbs = 256 → o.exact.natAbs ≤ (w * 256).natAbs) ∧
            o.ns = max (-2147483647) (min 2147483647 w))
    (h.kind = 2 → h.twoStep = false → s.exch.mark.map MarkDiff.seq ≠ some h.seq →
      (∀ b ∈ s.exch.boundary,
        (b - c.stamp.elapsed).toNat = 0 ∨ 2 ^ 63 < (b - c.stamp.elapsed).toNat) →
      gives (c.stamp.time - t1 - h.corr - s.portN.asym) h.seq renewed) ∧
      ∀ k : PendingMark, h.kind = 3 → s.exch.slot = some k → k.sender = h.sender → k.portNo = h.portNo →
        k.seq = h.seq →
        gives (k.t2 - t1 - (k.corr + h.corr) - s.portN.asym) k.seq fun t =>
          kept t ∧ t.exch.template = s.exch.template

/-- R74, R76, R78, R89: a two-step Mark from the selected source is ignored when the slot holds it already or the step
boundary excludes its stamp; otherwise it takes the slot with its stamp and correction and renews the probe template
from its frame, the latest Mark difference kept; a WAITING schedule then builds its Probe and is timed from the
present reading. -/
def Obligations.TwoStepMarkFillsSlot : Prop :=
  ∀ (s : State) (c : Copy) (rest : List Copy), s.copies = c :: rest →
    let content := contentOf c.bytes
    let h := readHdr content c.hdrPos
    let s1 : State := { s with copies := rest }
    let interval : Elapsed := BitVec.ofNat 64 (16000000000 * 2 ^ (s.servoCfg.probeCode + 4).toNat)
    h.kind = 2 → 38 ≤ h.len → h.domain = s.servoCfg.domain → h.twoStep = true →
    s.selectedName = some (h.sender, h.portNo) →
    let held : Prop :=
      ∃ k, s.exch.slot = some k ∧ k.sender = h.sender ∧ k.portNo = h.portNo ∧ k.seq = h.seq
    let early : Prop :=
      ∃ b, s.exch.boundary = some b ∧ 1 ≤ (b - c.stamp.elapsed).toNat ∧ (b - c.stamp.elapsed).toNat ≤ 2 ^ 63
    (held ∨ early → exec .timingCopyIntake s = .next s1) ∧
      (¬ held → ¬ early →
        ∀ tpl : Template, tpl.isOf c →
          let exch : Exchange :=
            { s.exch with
              slot :=
                some { sender := h.sender, portNo := h.portNo, seq := h.seq, t2 := c.stamp.time, corr := h.corr }
              template := some tpl }
          ((∀ n l, s.exch.sched ≠ .waiting n l) →
            exec .timingCopyIntake s = .next { s1 with exch := exch }) ∧
            ∀ n l, s.exch.sched = .waiting n l →
              exec .timingCopyIntake s =
                .next
                  (arrive .n .timing { bytes := probeFrame s tpl, origin := .probe s.exch.probeSeq }
                    { s1 with
                      exch :=
                        { exch with
                          sched := .timed (s.elapsed + interval) s.elapsed, probeSeq := s.exch.probeSeq + 1 } }))

/-- R71, R82, R83: a Probe Reply from the selected source that names this part and port 1, matches a pending probe and
finds a Mark difference forms s = t4 − t3 − c_p + A and d = (m + s) / 2 rounded down; a d of zero or more joins the
window, the oldest of 8 leaving, and a negative one is discarded. The record is removed and nothing else changes. -/
def Obligations.ReplyGivesDelaySample : Prop :=
  ∀ (s : State) (c : Copy) (rest : List Copy) (q : PendingProbe) (k : MarkDiff), s.copies = c :: rest →
    let content := contentOf c.bytes
    let h := readHdr content c.hdrPos
    let t4 : Int := ((fieldAt content (c.hdrPos + 28) 6 * 10 ^ 9 + fieldAt content (c.hdrPos + 34) 4) * 256 : Nat)
    h.kind = 5 → 48 ≤ h.len → h.domain = s.servoCfg.domain → s.selectedName = some (h.sender, h.portNo) →
    BitVec.ofNat 64 (fieldAt content (c.hdrPos + 38) 8) = s.identity → fieldAt content (c.hdrPos + 46) 2 = 1 →
    fieldAt content (c.hdrPos + 34) 4 < 10 ^ 9 → s.exch.mark = some k →
    (∃ a b, s.exch.probes = a ++ q :: b ∧ q.seq = h.seq ∧ ∀ y ∈ a, y.seq ≠ h.seq) →
    let d : Int := (k.m + (t4 - q.t3 - h.corr + s.portN.asym)).fdiv 2
    let left := s.exch.probes.filter fun y => y.seq != h.seq
    (d < 0 → exec .timingCopyIntake s = .next { s with copies := rest, exch := { s.exch with probes := left } }) ∧
      (0 ≤ d → s.exch.window.length ≤ 8 →
        exec .timingCopyIntake s =
          .next
            { s with
              copies := rest
              exch :=
                { s.exch with
                  probes := left
                  window :=
                    (if s.exch.window.length = 8 then s.exch.window.tail else s.exch.window) ++ [d] } })

/-- R53, R71 to R75, R82, R89: the messages that the exchange unit does not use. A copy that fails the intake's checks
(kind, length, domain, a Probe), a Mark, Follow or Reply that is not from the selected source, a Reply that names
another requester or matches no pending probe, a repeated one-step Mark, one whose stamp the step boundary excludes or
whose origin is invalid, and a Follow that does not match the pending Mark change nothing. A matching Follow with an
invalid precise origin empties the slot alone, and a matching Reply with an invalid t4, or with no Mark difference held,
removes its record alone. -/
def Obligations.UnusedMessagesAreIgnored : Prop :=
  ∀ (s : State) (c : Copy) (rest : List Copy), s.copies = c :: rest →
    let content := contentOf c.bytes
    let h := readHdr content c.hdrPos
    let s1 : State := { s with copies := rest }
    let invalid : Prop := 10 ^ 9 ≤ fieldAt content (c.hdrPos + 34) 4
    let selected : Prop := s.selectedName = some (h.sender, h.portNo)
    let passes (least : Nat) : Prop := least ≤ h.len ∧ h.domain = s.servoCfg.domain ∧ selected
    let forPart : Prop :=
      BitVec.ofNat 64 (fieldAt content (c.hdrPos + 38) 8) = s.identity ∧ fieldAt content (c.hdrPos + 46) 2 = 1
    let slotMatch : Prop :=
      ∃ k, s.exch.slot = some k ∧ k.sender = h.sender ∧ k.portNo = h.portNo ∧ k.seq = h.seq
    let early : Prop :=
      ∃ b, s.exch.boundary = some b ∧ 1 ≤ (b - c.stamp.elapsed).toNat ∧ (b - c.stamp.elapsed).toNat ≤ 2 ^ 63
    (h.kind = 0 ∨ h.kind = 4 ∨ 5 < h.kind ∨ h.domain ≠ s.servoCfg.domain ∨ (h.kind = 1 ∧ h.len < 46) ∨
          ((h.kind = 2 ∨ h.kind = 3) ∧ h.len < 38) ∨ (h.kind = 5 ∧ h.len < 48) ∨
          (h.kind ≠ 1 ∧ ¬ selected) ∨
          (h.kind = 2 ∧ h.twoStep = false ∧
            (s.exch.mark.map MarkDiff.seq = some h.seq ∨ early ∨ invalid)) ∨
          (h.kind = 3 ∧ ¬ slotMatch) ∨
          (h.kind = 5 ∧ (¬ forPart ∨ ∀ q ∈ s.exch.probes, q.seq ≠ h.seq)) →
        exec .timingCopyIntake s = .next s1) ∧
      (h.kind = 3 → passes 38 → slotMatch → invalid →
        exec .timingCopyIntake s = .next { s1 with exch := { s.exch with slot := none } }) ∧
      (h.kind = 5 → passes 48 → forPart → (∃ q ∈ s.exch.probes, q.seq = h.seq) → invalid ∨ s.exch.mark = none →
        exec .timingCopyIntake s =
          .next { s1 with exch := { s.exch with probes := s.exch.probes.filter fun q => q.seq != h.seq } })

/-- R78, R79, R12, R13: an expiry with a template builds a Probe with the present sequence number and hands it to Port
N's timing queue; without one the schedule becomes WAITING; the next expiry is one interval of 2^code s after the
expiry's reading. While WAITING the schedule stays so and its next expiry moves on by one interval. Before the next
expiry, and while STOPPED, nothing happens. The Probe's frame, byte by byte: the addresses, the template's tag, the
EtherType, under UDP4 the IPv4 header with its checksum and the UDP header, and the timing message, with the part's
timing identity and port 1; an L2 Probe is padded with zeros to 60 bytes, a UDP4 Probe has 80 bytes untagged and 84
tagged. That the reading of an expiry is the elapsed counter as the command finds it is the model's (assumption 14). -/
def Obligations.ProbeScheduleExpires : Prop :=
  (∀ s : State,
    s.exch.sched = .stopped ∨
        (∃ next latest, (s.exch.sched = .timed next latest ∨ s.exch.sched = .waiting next latest) ∧
          2 ^ 63 ≤ (s.elapsed - next).toNat) →
      exec .probeScheduleExpiry s = .next s) ∧
    (∀ (s : State) (next latest : Elapsed), (s.elapsed - next).toNat < 2 ^ 63 →
      let interval : Elapsed := BitVec.ofNat 64 (16000000000 * 2 ^ (s.servoCfg.probeCode + 4).toNat)
      (∀ t, s.exch.sched = .timed next latest → s.exch.template = some t →
        exec .probeScheduleExpiry s =
          .next
            (arrive .n .timing { bytes := probeFrame s t, origin := .probe s.exch.probeSeq }
              { s with
                exch :=
                  { s.exch with
                    sched := .timed (s.elapsed + interval) s.elapsed, probeSeq := s.exch.probeSeq + 1 } })) ∧
        (s.exch.sched = .timed next latest → s.exch.template = none →
          exec .probeScheduleExpiry s =
            .next { s with exch := { s.exch with sched := .waiting (s.elapsed + interval) latest } }) ∧
        (s.exch.sched = .waiting next latest →
          exec .probeScheduleExpiry s =
            .next { s with exch := { s.exch with sched := .waiting (next + interval) latest } })) ∧
    ∀ (s : State) (t : Template),
      let b := probeFrame s t
      let o : Nat := if t.tci = none then 12 else 16
      let message (q : Nat) : Prop :=
        byteAt b q = 4#8 ∧ byteAt b (q + 1) = 2#8 ∧ fieldAt b (q + 2) 2 = 38 ∧ byteAt b (q + 4) = s.servoCfg.domain ∧
          (s.servoCfg.legal → signedOf 8 (byteAt b (q + 5)).toNat = s.servoCfg.probeCode) ∧
          fieldAt b (q + 6) 2 = 0 ∧ fieldAt b (q + 8) 8 = 0 ∧ fieldAt b (q + 16) 2 = 0x6A1C ∧
          fieldAt b (q + 18) 6 = s.station.toNat ∧ fieldAt b (q + 24) 2 = 1 ∧
          fieldAt b (q + 26) 2 = s.exch.probeSeq.toNat ∧ slice b (q + 28) 10 = List.replicate 10 0
      fieldAt b 0 6 = t.station.toNat ∧ fieldAt b 6 6 = s.station.toNat ∧
        (∀ v ∈ t.tci, fieldAt b 12 2 = 0x8100 ∧ fieldAt b 14 2 = v.toNat) ∧
        (∀ et, t.net = .l2 et →
          b.length = 60 ∧ fieldAt b o 2 = et.toNat ∧ message (o + 2) ∧
            b.drop (o + 40) = List.replicate (20 - o) 0) ∧
        ∀ ip tos port, t.net = .udp4 ip tos port →
          let d := o + 2
          b.length = o + 68 ∧ fieldAt b o 2 = 0x0800 ∧ byteAt b d = 0x45#8 ∧ byteAt b (d + 1) = tos ∧
            fieldAt b (d + 2) 2 = 66 ∧ fieldAt b (d + 4) 2 = 0 ∧ fieldAt b (d + 6) 2 = 0x4000 ∧
            byteAt b (d + 8) = 64#8 ∧ byteAt b (d + 9) = 17#8 ∧
            fieldAt b (d + 10) 2 = 65535 - onesSum (slice b d 10 ++ [0, 0] ++ slice b (d + 12) 8) ∧
            fieldAt b (d + 12) 4 = s.servoCfg.probeIp.toNat ∧ fieldAt b (d + 16) 4 = ip.toNat ∧
            fieldAt b (d + 20) 2 = port.toNat ∧ fieldAt b (d + 22) 2 = port.toNat ∧ fieldAt b (d + 24) 2 = 46 ∧
            fieldAt b (d + 26) 2 = 0 ∧ message (d + 28)

/-! ### Counters, steps, servo and clock monitor -/

/-- R92, R93, R3, R10, R137, R159, R168, R178: what a tick with no step asked for does. Both counters gain the
increment, the time counter held at its top and the elapsed counter wrapping. Each serializer counts the tick for its
word. Each capture line in use takes its sample: a re-seeded qualifier takes it as the accepted level, a candidate of
that level has its run count raised. At the top an output whose end lies beyond it goes inactive. Each port forms its
ingress stamps, and no departure is left waiting. When the tick reaches no edge, no end of an output and no AT_TIME
switch, each serializer shows its outputs at its tick count and each pin drives its route's level. The servo, the
tables and the management state are unchanged; the exchange unit, the residence table and the events are too when no
departure waits for its stamp. The sample, the marks of the tick before and the moments at which pins change and stamps
are formed are the model's (assumptions 6, 7 and 14). -/
def Obligations.TickAdvancesCounters : Prop :=
  ∀ (inp : TickIn) (s : State), s.steps = [] →
    let inc : Nat := incrementOf s.servo.a
    let top : Nat := 2 ^ 48 * 10 ^ 9 * 2 ^ 32 - 1
    ∃ t : State, exec (.tick inp) s = .next t ∧
      t.time.total = min (s.time.total + inc) top ∧
      t.elapsed.toNat * 2 ^ 24 + t.elapsedRem.toNat =
        (s.elapsed.toNat * 2 ^ 24 + s.elapsedRem.toNat + inc) % 2 ^ 88 ∧
      t.prevTime = s.time.total ∧ t.prevTime2 = s.prevTime ∧ t.steps = [] ∧ t.clock = s.clock.tick ∧
      t.switch = (s.switch.map fun q => { q with dueTick := q.due }) ∧ t.departing = [] ∧
      (∀ m : Fin 2,
        t.ser[m].word = (s.ser[m].word.map fun w => { w with count := w.count + 1 }) ∧
          t.ser[m].stepSeen = s.ser[m].stepSeen) ∧
      ((∀ n : Fin 8,
          (∀ k e, s.cad[n].st = .running k e ∨ s.cad[n].st = .armed k e → t.time.total < e * 2 ^ 32) ∧
            ∀ e ∈ s.cad[n].pulse, t.time.total < e * 2 ^ 32) →
        (∀ q ∈ s.switch, ∀ sec ns, q.trigger = .atTime sec ns →
          q.due = false ∧ t.time.total < (sec * 10 ^ 9 + ns) * 2 ^ 32) →
        t.view = none ∧ (∀ m : Fin 2, (t.ser[m].data, t.ser[m].clk) = t.ser[m].outputs (s.label m)) ∧
          ∀ i : Fin 12, t.pins[i] = t.lineLevel i) ∧
      (∀ n : Fin 8, t.cad[n] = { s.cad[n] with endedNow := false, pulse := t.cad[n].pulse } ∧
        (s.cad[n].pulse = none → t.cad[n].pulse = none) ∧
        ∀ e, s.cad[n].pulse = some e →
          t.cad[n].pulse = if t.time = TimeVal.top ∧ 2 ^ 48 * 10 ^ 9 ≤ e then none else some e) ∧
      (∀ n : Fin 4,
        (s.capRec[n].sel = .none → t.cap[n] = s.cap[n]) ∧
          (s.capRec[n].sel ≠ .none →
            t.cap[n] = { s.cap[n] with sample := inp.cap[n], qual := t.cap[n].qual } ∧
              (s.cap[n].qual = .seeding → t.cap[n].qual = .live inp.cap[n] none) ∧
              (∀ a, s.cap[n].qual = .live a none → t.cap[n].qual = .live a none) ∧
              ∀ a c, s.cap[n].qual = .live a (some c) →
                t.cap[n].qual =
                  .live a (some { c with run := if c.level = inp.cap[n] then c.run + 1 else c.run }))) ∧
      (∀ p : Port,
        let began : Bool :=
          match p with
          | .n => inp.rxN
          | .d => inp.rxD
        let stamp (latency : Nat) : Stamp :=
          { time := t.time.reading - latency, elapsed := t.elapsed - BitVec.ofNat 64 latency }
        (t.port p).unstamped = [] ∧
          (t.port p).records =
            (s.port p).records ++
              (s.port p).unstamped.map (fun a => { bytes := a.bytes, stamp := stamp a.latency }) ∧
          (t.port p).receiving =
            if began = true ∧ (s.port p).link = .up then some (stamp (s.port p).ingressLat)
            else (s.port p).receiving) ∧
      t.servo = s.servo ∧ t.servoCfg = s.servoCfg ∧ t.sources = s.sources ∧ t.copies = s.copies ∧
      t.classify = s.classify ∧ t.banks = s.banks ∧ t.active = s.active ∧ t.capRec = s.capRec ∧
      t.requests = s.requests ∧ t.managers = s.managers ∧ t.civil = s.civil ∧ t.notifyCfg = s.notifyCfg ∧
      t.restart = s.restart ∧
      (s.departing = [] →
        t.exch = s.exch ∧ t.residence = s.residence ∧ t.groups = s.groups ∧ t.notifySeq = s.notifySeq ∧
          ∀ p : Port,
            t.port p =
              { s.port p with
                records := (t.port p).records, unstamped := [], receiving := (t.port p).receiving })

/-- R159, R156, R126, R127, R151, R149: the outputs at a tick stand as they are after the events of the tick. When the
tick reaches an event that is still to be taken, the pins and the serializers' outputs stand as before; whatever event
commands, requests for a switch and cancels follow, in whatever order, once no event is left each serializer shows its
outputs and each pin drives its route's level in the active bank as the state then is. So an edge or a word that a
switch of the same tick undoes appears at no pin, and neither does a switch that is cancelled. What is held back when
the next tick comes is shown then as far as its events were taken. The last clauses give what settling does, what each
event brings into the levels held back, and R157, R173: where a switch is the last event of its tick, each pin shows its
source as the incoming bank leaves it, whatever was written between the tick and the switch, the flags as they were at
the tick. That the outputs are held back, and shown late where events are late, is the model's (assumption 6). -/
def Obligations.PinsFollowTheEventsOfTheTick : Prop :=
  (∀ (c : Instr) (inp : TickIn) (s : State),
    c = .tick inp ∨ c = .stepTick inp ∧ s.steps ≠ [] ∨ (∃ n, c = .clockLoss n inp ∧ s.clock = .normal) →
    ∃ t : State, exec c s = .next t ∧ (t.view = none ↔ t.eventReached = false) ∧
      (t.eventReached = true →
        (s.view = none →
          t.pins = s.pins ∧ ∀ m : Fin 2, t.ser[m].data = s.ser[m].data ∧ t.ser[m].clk = s.ser[m].clk) ∧
          ∀ v, s.view = some v →
            (∀ i : Fin 12, t.pins[i] = (v.lines[i]).level v) ∧
              ∀ m : Fin 2, (t.ser[m].data, t.ser[m].clk) = v.ser[m]) ∧
      ∀ cs : List Instr, (∀ x ∈ cs, actsInTick x = true) →
        let u := t.carry cs
        u.eventReached = false →
          u.view = none ∧ (∀ m : Fin 2, (u.ser[m].data, u.ser[m].clk) = u.ser[m].outputs (u.label m)) ∧
            ∀ i : Fin 12, u.pins[i] = u.lineLevel i) ∧
    (∀ s : State,
      (s.eventReached = true ↔
        (∃ n : Fin 8,
            (∃ e, s.cad[n].pulse = some e ∧ e * 2 ^ 32 ≤ s.time.total) ∨
              (∃ k e, s.cad[n].st = .running k e ∧ e * 2 ^ 32 ≤ s.time.total ∧ s.cad[n].pulse = none ∧
                s.cad[n].endedNow = false) ∨
              ∃ k e, s.cad[n].st = .armed k e ∧ e * 2 ^ 32 ≤ s.time.total ∧
                (s.mayFire n ∨ ((s.cadRec n).policy = .whenTraced ∧ s.servo.traced = false))) ∨
          ∃ q ∈ s.switch, ∃ sec ns, q.trigger = .atTime sec ns ∧
            (q.due = true ∧ q.dueTick = true ∨
              q.due = false ∧ (sec * 10 ^ 9 + ns) * 2 ^ 32 ≤ s.time.total)) ∧
        (s.view = none ∨ s.eventReached = true → settleTick s = s) ∧
        ∀ v, s.view = some v → s.eventReached = false →
          let t := settleTick s
          t = { s with ser := t.ser, pins := t.pins, view := none } ∧
            (∀ i : Fin 12, t.pins[i] = (v.lines[i]).level v) ∧
            ∀ m : Fin 2, t.ser[m] = { s.ser[m] with data := v.ser[m].1, clk := v.ser[m].2 }) ∧
    (∀ (s t : State) (v : TickView), t.view = some v →
      ∃ w : TickView, endEvent s t = settleTick { t with view := some w } ∧
        w.locked = v.locked ∧ w.traced = v.traced ∧ w.backup = v.backup ∧
        let live (n : Fin 8) : Prop := ∃ e ∈ t.cad[n].pulse, t.time.total < e * 2 ^ 32
        (t.switch = s.switch →
          w.lines = v.lines ∧
            (∀ n : Fin 8,
              (t.cad[n] = s.cad[n] → w.active[n] = v.active[n]) ∧
                (t.cad[n] ≠ s.cad[n] → (w.active[n] = true ↔ live n))) ∧
            ∀ m : Fin 2,
              let same : Prop := t.ser[m].word = s.ser[m].word ∧ t.label m = s.label m
              (same → w.ser[m] = v.ser[m]) ∧ (¬ same → w.ser[m] = t.ser[m].outputs (t.label m))) ∧
        (t.switch ≠ s.switch →
          w.lines = t.banks[t.active].lines ∧ (∀ n : Fin 8, w.active[n] = true ↔ live n) ∧
            ∀ m : Fin 2, w.ser[m] = t.ser[m].outputs (t.label m))) ∧
    ∀ (s t : State) (v : TickView) (c : Instr),
      c = .atTimeReached ∨ (∃ n, c = .cadenceEdge n ∨ c = .oneshotFire n) → exec c s = .next t →
      s.view = some v → s.switch ≠ none → t.switch = none → t.view = none →
        let u : State :=
          { t with
            servo := { t.servo with locked := v.locked, traced := v.traced }
            clock := if v.backup = true then .backup none else .normal }
        (∀ i : Fin 12, t.pins[i] = u.lineLevel i) ∧
          ∀ m : Fin 2, (t.ser[m].data, t.ser[m].clk) = t.ser[m].outputs (t.label m)

/-- R95, R96, R88, R133, R134, R167, R183: at the tick of a step by `amount`, the counter takes the advanced value
plus the amount in 1/256 ns with the low 24 bits of the fraction kept, when that is in range; at the tick of a step to
a given time it takes that time with fraction 0. Then TIME_STEPPED is pending, the exchange unit drops its pending
Mark, Mark difference and pending probes and sets its step boundary, every held stamp, every candidate's stamp and
both serializers are marked, and, with no switch pending, each RUNNING cadence takes the first edge later than the
stepped value with REALIGNED and each ARMED one that the step has passed is DONE with ONESHOT_MISSED. The servo, the
source table and the elapsed counter see no step. Out of range, the counter advances as at any tick and no block is
told. That one command is the whole tick of the step, and that without a step asked for there is no such tick, is the
model's (assumption 5). -/
def Obligations.StepTickMovesCounterAndTells : Prop :=
  ∀ (inp : TickIn) (s : State) (r : StepReq), s.steps = [r] →
    let adv : TimeVal := s.time.advance (incrementOf s.servo.a)
    (exec (.stepTick inp) { s with steps := [] } = .next { s with steps := [] }) ∧
    ∃ t : State, exec (.stepTick inp) s = .next t ∧ t.steps = [] ∧ t.servo = s.servo ∧ t.sources = s.sources ∧
      t.servoCfg = s.servoCfg ∧ t.banks = s.banks ∧ t.requests = s.requests ∧
      t.elapsed.toNat * 2 ^ 24 + t.elapsedRem.toNat =
        (s.elapsed.toNat * 2 ^ 24 + s.elapsedRem.toNat + incrementOf s.servo.a) % 2 ^ 88 ∧
      let told : Prop :=
        t.isPending .timeStepped = true ∧
          ((∀ d ∈ s.departing, d.latency ≤ 16777215) →
            t.exch = { s.exch with slot := none, mark := none, probes := [], boundary := some t.elapsed }) ∧
          (∀ m : Fin 2, t.ser[m].stepSeen = true) ∧
          (∀ n : Fin 4,
            (∀ x ∈ t.cap[n].ring, x.beforeStep = true) ∧
              ∀ a c, t.cap[n].qual = .live a (some c) → c.stamp.beforeStep = true) ∧
          (s.switch = none →
            t.active = s.active ∧
              ∀ n : Fin 8,
                (∀ k e, s.cad[n].st = .running k e →
                  t.isPending (.realigned n) = true ∧ t.cad[n].pulse = none ∧ t.cad[n].last = s.cad[n].last ∧
                    let j := (s.cadRec n).firstAt (t.time.totalNs + 1)
                    t.cad[n].st = .running j ((s.cadRec n).edgeTime j)) ∧
                (∀ k e, s.cad[n].st = .armed k e →
                  (e * 2 ^ 32 ≤ t.time.total → t.cad[n].st = .done ∧ t.isPending .oneshotMissed = true) ∧
                    (t.time.total < e * 2 ^ 32 → t.cad[n].st = .armed k e)) ∧
                (s.cad[n].st = .off ∨ s.cad[n].st = .waiting ∨ s.cad[n].st = .idle →
                  t.cad[n].st = s.cad[n].st) ∧
                (s.cad[n].st = .done → t.cad[n].st = .done ∧ t.cad[n].pulse = none))
      let untold : Prop :=
        t.time = adv ∧ t.active = s.active ∧ t.switch.isSome = s.switch.isSome ∧
          (∀ n : Fin 8, t.cad[n].st = s.cad[n].st) ∧ (∀ m : Fin 2, t.ser[m].stepSeen = s.ser[m].stepSeen) ∧
          (∀ n : Fin 4, t.cap[n].ring = s.cap[n].ring) ∧
          (s.departing = [] → t.exch = s.exch ∧ t.groups = s.groups)
      (∀ amount : Int, r = .by amount →
        let v : Int := adv.reading + amount
        (0 ≤ v → v < 2 ^ 48 * 10 ^ 9 * 256 →
          t.time.reading = v ∧ t.time.frac.toNat % 2 ^ 24 = adv.frac.toNat % 2 ^ 24 ∧ told) ∧
          (v < 0 ∨ 2 ^ 48 * 10 ^ 9 * 256 ≤ v → untold)) ∧
        ∀ sec ns : Nat, r = .to sec ns →
          (sec < 2 ^ 48 → ns < 10 ^ 9 → t.time = { sec := sec, ns := ns, frac := 0 } ∧ told) ∧
            (2 ^ 48 ≤ sec ∨ 10 ^ 9 ≤ ns → untold)

/-- R97, R98: STEP_TIME and SET_TIME are taken in FREE alone; in FREE a STEP_TIME of zero does nothing, a nonzero one
asks for a step when the value at the step tick is in range and is BAD_VALUE otherwise; SET_TIME asks for the given
time, and 10^9 ns or more is BAD_VALUE. Neither changes anything else before the step tick. The value at the step tick
is the model's forecast (assumption 11). R99: SET_TRIM is taken in FREE alone; the value, clamped to ± max adjust,
becomes a and is in the response, which is CLAMPED when the value was beyond ± max adjust; the integral, the history
and the servo state are unchanged. R94: f is |a| × 34,359,738,368 / 10^9 rounded half up, below 2^32 for every
permitted a, and the increment is 8 ns + f × 2^−32 ns for a of zero or more and 8 ns − f × 2^−32 ns for a below zero.
That a WRONG_STATE or BAD_VALUE response has an empty body is the model's
(assumption 16). -/
def Obligations.TimeAndTrimCommandsActInFree : Prop :=
  (∀ a : Int, a.natAbs ≤ 100000 →
    ∃ f : Nat, f < 2 ^ 32 ∧ 2 * 10 ^ 9 * f ≤ 2 * (a.natAbs * 34359738368) + 10 ^ 9 ∧
      2 * (a.natAbs * 34359738368) + 10 ^ 9 < 2 * 10 ^ 9 * (f + 1) ∧
      (0 ≤ a → incrementOf a = 8 * 2 ^ 32 + f) ∧ (a < 0 → incrementOf a + f = 8 * 2 ^ 32)) ∧
  (∀ (s : State) (r : Request) (rest : List Request),
    let s1 : State := { s with requests := rest }
    let reply (st : Status) (u : State) : State := respond r { st := st, body := [], after := u }
    (s.carriesOut .stepTime r rest →
      let z : Int := signedOf 64 (fieldAt r.body 0 8)
      let v : Int := (s.time.advance (incrementOf s.servo.a)).reading + z * 256
      (s.servo.st ≠ .free → exec .stepTime s = .next (reply .wrongState s1)) ∧
        (s.servo.st = .free → z = 0 → exec .stepTime s = .next (reply .ok s1)) ∧
        (s.servo.st = .free → z ≠ 0 → s.steps = [] → 0 ≤ v → v < 2 ^ 48 * 10 ^ 9 * 256 →
          exec .stepTime s = .next (reply .ok { s1 with steps := [.by (z * 256)] })) ∧
        (s.servo.st = .free → z ≠ 0 → s.steps = [] → v < 0 ∨ 2 ^ 48 * 10 ^ 9 * 256 ≤ v →
          exec .stepTime s = .next (reply .badValue s1))) ∧
      (s.carriesOut .setTime r rest →
        let sec := fieldAt r.body 0 6
        let ns := fieldAt r.body 6 4
        (s.servo.st ≠ .free → exec .setTime s = .next (reply .wrongState s1)) ∧
          (s.servo.st = .free → 10 ^ 9 ≤ ns → exec .setTime s = .next (reply .badValue s1)) ∧
          (s.servo.st = .free → ns < 10 ^ 9 →
            exec .setTime s = .next (reply .ok { s1 with steps := s.steps ++ [.to sec ns] })))) ∧
    ∀ (s : State) (r : Request) (rest : List Request), s.carriesOut .setTrim r rest →
      let s1 : State := { s with requests := rest }
      let z : Int := signedOf 32 (fieldAt r.body 0 4)
      let m : Int := s.servoCfg.maxAdjust
      let applied (st : Status) (a : Int) : State :=
        respond r
          { st := st, body := beBytes 4 (unsignedOf 32 a), after := { s1 with servo := { s.servo with a := a } } }
      (s.servo.st ≠ .free → exec .setTrim s = .next (respond r { st := .wrongState, body := [], after := s1 })) ∧
        (s.servo.st = .free → -m ≤ z → z ≤ m → exec .setTrim s = .next (applied .ok z)) ∧
        (s.servo.st = .free → m < z → exec .setTrim s = .next (applied .clamped m)) ∧
        (s.servo.st = .free → z < -m → exec .setTrim s = .next (applied .clamped (-m)))

/-- R102, R104: in FREE and HOLDOVER a sample is ignored; in ACQUIRE one beyond the step threshold asks for a step of
the exact −θ and applies nothing, and one within it enters TRACK and is applied. R105, R106, R107, R108, R129: a TRACK
sample within the gate, or with LOCKED clear, sets a, I and the history by the loop's arithmetic and the outlier count
to 0, and lock detection sees it; the first lock sets the traced flag and starts every WAITING cadence at its first edge
later than the counter (R129); an outlier is counted and applies nothing; the 4th in a row clears LOCKED with LOCK_LOST
and is taken as an ACQUIRE sample. -/
def Obligations.SamplesDriveServo : Prop :=
  (∀ (o : Offset) (s : State),
    (s.servo.st = .acquire → s.servoCfg.stepThreshold < o.ns.natAbs →
      servoSample o s = { s with steps := s.steps ++ [.by (-o.exact)] }) ∧
      (s.servo.st = .acquire → o.ns.natAbs ≤ s.servoCfg.stepThreshold →
        servoSample o s = applySample o.ns { s with servo := { s.servo with st := .track } }) ∧
      (s.servo.st = .free ∨ s.servo.st = .holdover → servoSample o s = s)) ∧
  ∀ (o : Offset) (s : State), s.servo.st = .track →
    let c := s.servoCfg
    let m : Int := c.maxAdjust
    let i : Int := max (-(m * 65536)) (min (m * 65536) (s.servo.integ + o.ns * c.ki))
    let a : Int := max (-m) (min m (-((o.ns * c.kp).tdiv 256 + i.tdiv 65536)))
    let t := servoSample o s
    (s.servo.locked = false ∨ o.ns.natAbs ≤ c.outlierGate →
      t.servo.st = .track ∧ t.servo.a = a ∧ t.servo.integ = i ∧ t.servo.outlierCount = 0 ∧ t.steps = s.steps ∧
        t.servo.history = (s.servo.history ++ [a]).drop (s.servo.history.length - 15) ∧
        (s.servo.locked = false → o.ns.natAbs ≤ c.lockWindow → s.servo.lockCount = 7 →
          t.servo.locked = true ∧ t.servo.lockHeld = true ∧ t.servo.lockCount = 0 ∧ t.servo.traced = true ∧
            t.isPending .lockGained = true ∧ (s.servo.traced = true → t.cad = s.cad) ∧
            (s.servo.traced = false →
              ∀ n : Fin 8,
                (s.cad[n].st ≠ .waiting → t.cad[n] = s.cad[n]) ∧
                  (s.cad[n].st = .waiting → (s.cadRec n).mode = .continuous →
                    let j := (s.cadRec n).firstAt (s.time.totalNs + 1)
                    t.cad[n] = { s.cad[n] with st := .running j ((s.cadRec n).edgeTime j) }))) ∧
        (s.servo.locked = false → o.ns.natAbs ≤ c.lockWindow → s.servo.lockCount < 7 →
          t.servo.locked = false ∧ t.servo.lockCount = s.servo.lockCount + 1) ∧
        (s.servo.locked = false → c.lockWindow < o.ns.natAbs → t.servo.locked = false ∧ t.servo.lockCount = 0) ∧
        (s.servo.locked = true → o.ns.natAbs ≤ 4 * c.lockWindow → t.servo.locked = true) ∧
        (s.servo.locked = true → 4 * c.lockWindow < o.ns.natAbs →
          t.servo.locked = false ∧ t.servo.lockHeld = s.servo.lockHeld ∧ t.servo.lockCount = 0 ∧
            t.isPending .lockLost = true)) ∧
      (s.servo.locked = true → c.outlierGate < o.ns.natAbs → s.servo.outlierCount < 3 →
        t = { s with servo := { s.servo with outlierCount := s.servo.outlierCount + 1 } }) ∧
      (s.servo.locked = true → c.outlierGate < o.ns.natAbs → s.servo.outlierCount = 3 →
        t.isPending .lockLost = true ∧ t.servo.outlierCount = 0 ∧
          (c.stepThreshold < o.ns.natAbs →
            t.servo.st = .acquire ∧ t.servo.a = s.servo.a ∧ t.servo.integ = s.servo.integ ∧ t.servo.history = [] ∧
              t.servo.locked = false ∧ t.steps = s.steps ++ [.by (-o.exact)]) ∧
          (o.ns.natAbs ≤ c.stepThreshold →
            t.servo.st = .track ∧ t.servo.a = a ∧ t.servo.integ = i ∧ t.servo.history = [a] ∧ t.steps = s.steps))

/-- R102, R103, R109: what a change of selection does to the servo, row by row. FREE goes to ACQUIRE with a kept and I
set to −a × 65,536 while the clock monitor is NORMAL, and stays FREE in BACKUP and with no selection; ACQUIRE stays on
another record and goes to FREE on none, a and I kept; TRACK goes to ACQUIRE on another record, a and I kept, and on
none to FREE with the lock-held flag clear; HOLDOVER goes to ACQUIRE with I set from a. Each entry to ACQUIRE empties
the history and clears the counts, the lock-held flag and LOCKED, the last with LOCK_LOST. R110: on the loss of its
selection in TRACK with the lock-held flag set the servo enters HOLDOVER at the mean of its history, truncated toward
zero and clamped. R111: past a nonzero limit HOLDOVER ends in FREE with a and I kept and HOLDOVER_EXPIRED; before the
limit, at it, with a limit of 0 and in any other state nothing happens. That the holdover start keeps its value at that
end is read from the rules by inference (DEDUCED, assumption 18); that HOLDOVER begins with an outlier count of 0 is
read from R106 in the same way, and that the lock count is kept there is the model's choice (both assumption 24). -/
def Obligations.SelectionAndHoldoverMoveServo : Prop :=
  (∀ (s : State) (r : SourceName),
    let v := s.servo
    let moved (st : ServoState) (integ : Int) (h : List Int) : Servo :=
      { v with st := st, integ := integ, history := h, locked := false, lockHeld := false, lockCount := 0,
               outlierCount := 0 }
    let acquires (integ : Int) : Prop :=
      (v.locked = false → servoSelection (some r) s = { s with servo := moved .acquire integ [] }) ∧
        (v.locked = true →
          servoSelection (some r) s = raise .lockLost { s with servo := moved .acquire integ [] })
    (v.st = .free → s.clock = .normal → acquires (-v.a * 65536)) ∧
      (v.st = .free → s.clock ≠ .normal → servoSelection (some r) s = s) ∧
      (v.st = .free → servoSelection none s = s) ∧ (v.st = .acquire → servoSelection (some r) s = s) ∧
      (v.st = .acquire →
        servoSelection none s = { s with servo := { v with st := .free, lockCount := 0, outlierCount := 0 } }) ∧
      (v.st = .track → acquires v.integ) ∧
      (v.st = .track → v.lockHeld = false →
        servoSelection none s = { s with servo := { v with st := .free, lockCount := 0, outlierCount := 0 } }) ∧
      (v.st = .holdover → acquires (-v.a * 65536))) ∧
  ∀ s : State,
    (s.servo.st = .track → s.servo.lockHeld = true → s.servo.history ≠ [] →
      let m : Int := s.servoCfg.maxAdjust
      let h : Int := max (-m) (min m (s.servo.history.sum.tdiv s.servo.history.length))
      let t := servoSelection none s
      t.servo =
          { s.servo with
            st := .holdover, a := h, integ := -h * 65536, holdStart := some s.elapsed, locked := false,
            outlierCount := 0, lockHeld := false } ∧
        t.isPending .holdoverEntered = true ∧ (s.servo.locked = true → t.isPending .lockLost = true) ∧
        t.exch = s.exch ∧ t.sources = s.sources ∧ t.steps = s.steps) ∧
      (s.servo.st ≠ .holdover ∨ s.servoCfg.holdoverLimit = 0 ∨
          (∃ start, s.servo.holdStart = some start ∧
            (s.elapsed - start).toNat ≤ s.servoCfg.holdoverLimit * 256000000000) →
        exec .holdoverExpired s = .next s) ∧
      ∀ start, s.servo.st = .holdover → s.servo.holdStart = some start → s.servoCfg.holdoverLimit ≠ 0 →
        s.servoCfg.holdoverLimit * 256000000000 < (s.elapsed - start).toNat →
        exec .holdoverExpired s =
          .next
            (raise .holdoverExpired
              { s with servo := { s.servo with st := .free, lockCount := 0, outlierCount := 0 } })

/-- R113, R114, R136: at a loss of TCLK the monitor enters BACKUP, the counters advance by n increments, the servo
enters FREE with a and I zero and no history, CLOCK_LOSS is pending, and LOCK_LOST too when LOCKED was set. The traced
flag, the source table and the exchange unit are kept and no step is told. With no switch pending, an active output
whose end time the advance reached goes inactive and another runs on; a RUNNING cadence whose next edge the advance
reached takes the first edge later than the counter with REALIGNED, and an ARMED one is DONE with ONESHOT_MISSED; the
other states stay. Outside NORMAL there is no loss. That an edge which R128 had put off to this tick counts as reached
by the advance is the model's (assumption 22), and so is that a step asked for stays asked for (assumption 5). The
statement is for every n; which n the world can give is the model's (assumption 13). -/
def Obligations.ClockLossCatchesUp : Prop :=
  ∀ (n : Nat) (inp : TickIn) (s : State),
    (s.clock ≠ .normal → exec (.clockLoss n inp) s = .next s) ∧
    (s.clock = .normal →
    let inc : Nat := incrementOf s.servo.a
    ∃ t : State, exec (.clockLoss n inp) s = .next t ∧ t.clock = .backup none ∧
      t.time.total = min (s.time.total + n * inc) (2 ^ 48 * 10 ^ 9 * 2 ^ 32 - 1) ∧
      t.elapsed.toNat * 2 ^ 24 + t.elapsedRem.toNat =
        (s.elapsed.toNat * 2 ^ 24 + s.elapsedRem.toNat + n * inc) % 2 ^ 88 ∧
      t.servo =
        { s.servo with
          st := .free, a := 0, integ := 0, locked := false, lockCount := 0, outlierCount := 0, lockHeld := false,
          history := [], holdStart := none } ∧
      t.isPending .clockLoss = true ∧ (s.servo.locked = true → t.isPending .lockLost = true) ∧
      t.isPending .timeStepped = s.isPending .timeStepped ∧
      t.isPending .holdoverExpired = s.isPending .holdoverExpired ∧ t.sources = s.sources ∧
      (s.departing = [] → t.exch = s.exch) ∧
      t.steps = s.steps ∧ t.servoCfg = s.servoCfg ∧ t.banks = s.banks ∧
      (s.switch = none → ∀ c : Fin 8,
        (∀ k e, s.cad[c].st = .running k e →
          (e * 2 ^ 32 ≤ t.time.total →
            t.isPending (.realigned c) = true ∧ t.cad[c].pulse = none ∧
              let j := (s.cadRec c).firstAt (t.time.totalNs + 1)
              t.cad[c].st = .running j ((s.cadRec c).edgeTime j)) ∧
            (t.time.total < e * 2 ^ 32 → t.cad[c].st = .running k e)) ∧
        (∀ k e, s.cad[c].st = .armed k e →
          (e * 2 ^ 32 ≤ t.time.total → t.cad[c].st = .done ∧ t.isPending .oneshotMissed = true) ∧
            (t.time.total < e * 2 ^ 32 → t.cad[c].st = .armed k e)) ∧
        ((∀ k e, s.cad[c].st ≠ .running k e ∧ s.cad[c].st ≠ .armed k e) → t.cad[c].st = s.cad[c].st) ∧
        t.cad[c].last = s.cad[c].last ∧
        ∀ e, s.cad[c].pulse = some e →
          (e * 2 ^ 32 ≤ t.time.total → t.cad[c].pulse = none) ∧
            (t.time.total < e * 2 ^ 32 → e < 2 ^ 48 * 10 ^ 9 →
              (∀ k x, s.cad[c].st = .running k x → t.time.total < x * 2 ^ 32) → t.cad[c].pulse = some e)))

/-- R115, R103: in BACKUP the restore qualification starts, is restarted, and counts backup ticks; after 10 ms,
1,250,000 ticks of 8 ns, the monitor is NORMAL with CLOCK_RESTORED, and a selected record moves the servo to ACQUIRE
with a kept, I set to −a × 65,536 and LOCKED clear, with LOCK_LOST when it was set. Before the 10 ms, with no
qualification in progress, and in NORMAL, CLOCK_RESTORED changes nothing; a start with a qualification in progress or in
NORMAL, and a restart without one, change nothing either; a tick moves the monitor in no other way. That the count runs
in whole ticks, stands at its end and restarts at 0 is the model's (assumption 13). -/
def Obligations.ClockQualificationAndRestore : Prop :=
  ∀ s : State,
    (s.clock = .normal →
      exec .restoreQualificationStart s = .next s ∧ exec .restoreQualificationRestart s = .next s ∧
        exec .clockRestored s = .next s) ∧
      (s.clock = .backup none →
        exec .restoreQualificationStart s = .next { s with clock := .backup (some 0) } ∧
          exec .restoreQualificationRestart s = .next s ∧ exec .clockRestored s = .next s) ∧
      (∀ inp, ∃ t, exec (.tick inp) s = .next t ∧
        (s.clock = .normal → t.clock = .normal) ∧ (s.clock = .backup none → t.clock = .backup none) ∧
          ∀ n, s.clock = .backup (some n) →
            t.clock = .backup (some (if n < 1250000 then n + 1 else 1250000))) ∧
      ∀ n, s.clock = .backup (some n) →
        exec .restoreQualificationStart s = .next s ∧
          exec .restoreQualificationRestart s = .next { s with clock := .backup (some 0) } ∧
          (n < 1250000 → exec .clockRestored s = .next s) ∧
          (1250000 ≤ n → s.selectedName = none →
            exec .clockRestored s = .next (raise .clockRestored { s with clock := .normal })) ∧
          (1250000 ≤ n → s.selectedName ≠ none →
            ∃ t, exec .clockRestored s = .next t ∧ t.clock = .normal ∧ t.isPending .clockRestored = true ∧
              (s.servo.locked = true → t.isPending .lockLost = true) ∧
              (s.servo.locked = false → t.isPending .lockLost = s.isPending .lockLost) ∧
              t.time = s.time ∧ t.elapsed = s.elapsed ∧ t.exch = s.exch ∧ t.sources = s.sources ∧
              t.servo =
                { s.servo with
                  st := .acquire, integ := -s.servo.a * 65536, history := [], locked := false, lockCount := 0,
                  outlierCount := 0, lockHeld := false })

/-! ### Cadences -/

/-- R123, R126, R127, R128: the edges of a legal record lie floor(P) or floor(P) + 1 ns apart, a PULSE output ends at
least 8 ns before the next edge, and a SQUARE output falls at least 49 ns from the edges on either side. R125: the first
edge a start takes is the smallest index whose edge lies at or after the least time it may take. R126: the output of
edge k ends at E(k) + W under PULSE and at F(k) = floor((2k + 1) × den × 10^9 / (2 × num)) + φ under SQUARE. -/
def Obligations.EdgeSeriesAndFirstEdge : Prop :=
  (∀ (r : CadRec) (k : Nat), r.legal →
    r.edgeTime k = k * (r.den * 10 ^ 9) / r.num + r.phase ∧
      r.fallTime k = (2 * k + 1) * r.den * 10 ^ 9 / (2 * r.num) + r.phase ∧
      r.endTime k = (if r.shape = .pulse then r.edgeTime k + r.width else r.fallTime k) ∧
      r.floorP = r.den * 10 ^ 9 / r.num ∧
      r.edgeTime k + r.floorP ≤ r.edgeTime (k + 1) ∧ r.edgeTime (k + 1) ≤ r.edgeTime k + r.floorP + 1 ∧
      r.edgeTime k + r.width + 8 ≤ r.edgeTime (k + 1) ∧
      r.edgeTime k + 49 ≤ r.fallTime k ∧ r.fallTime k + 49 ≤ r.edgeTime (k + 1)) ∧
    ∀ (r : CadRec) (t k : Nat), 1 ≤ r.num → 1 ≤ r.den → (r.firstAt t ≤ k ↔ t ≤ r.edgeTime k)

/-- R126, R127, R165, R170: a RUNNING cadence whose next edge the counter has reached goes active until its end time
(when that is within the counter's range), its last edge is this one and its next the following index; the serializers
bound to it are told; and an output whose end time the counter has reached goes inactive. No switch waits for this
cadence. R128: while the output is active, and at the tick at which it ended, the edge is not produced and nothing
changes; nor does anything before the edge, in another state, or before the end of an output. The output-ended mark is
the model's (assumption 7), and so is that the outputs of the tick wait for these commands, which endEvent and
settleTick carry out (assumption 6). -/
def Obligations.CadenceEdgeIsProduced : Prop :=
  (∀ (n : Fin 8) (s : State),
    (∀ k e, s.cad[n].st = .running k e →
        s.time.total < e * 2 ^ 32 ∨ s.cad[n].pulse ≠ none ∨ s.cad[n].endedNow = true) →
      exec (.cadenceEdge n) s = .next s) ∧
  (∀ (n : Fin 8) (s : State) (k e : Nat), s.cad[n].st = .running k e → e * 2 ^ 32 ≤ s.time.total →
    s.cad[n].pulse = none → s.cad[n].endedNow = false → (∀ q ∈ s.switch, q.trigger ≠ .atEdge n) →
    (s.cadRec n).endTime k < 2 ^ 48 * 10 ^ 9 →
    let r := s.cadRec n
    ∃ t : State, exec (.cadenceEdge n) s = .next t ∧ s.serializersTold t n k e ∧
      t.cad =
        s.cad.set n
          { st := .running (k + 1) (r.edgeTime (k + 1))
            pulse := some (if r.shape = .pulse then r.edgeTime k + r.width else r.fallTime k)
            last := some (k, e)
            endedNow := false } ∧
      (s.view = none → t.pins = s.pins) ∧ t.time = s.time ∧ t.elapsed = s.elapsed ∧ t.servo = s.servo ∧
      t.exch = s.exch ∧ t.sources = s.sources ∧ t.banks = s.banks ∧ t.active = s.active ∧ t.switch = s.switch ∧
      t.cap = s.cap) ∧
  (∀ (n : Fin 8) (s : State), (∀ e, s.cad[n].pulse = some e → s.time.total < e * 2 ^ 32) →
    exec (.pulseEnd n) s = .next s) ∧
  ∀ (n : Fin 8) (s : State) (e : Nat), s.cad[n].pulse = some e → e * 2 ^ 32 ≤ s.time.total →
    exec (.pulseEnd n) s =
      .next (endEvent s { s with cad := s.cad.set n { s.cad[n] with pulse := none, endedNow := true } })

/-- R132: an ARMED cadence whose armed edge the counter has reached fires, its state DONE and ONESHOT_DONE pending, when
its run policy is ALWAYS or the traced flag is set, and the serializers bound to it are told (R165, R170); an earlier
output whose end time is not reached is replaced. R128: at the tick at which an earlier output ends it does not fire,
and nothing changes. With WHEN_TRACED and the flag clear it goes to DONE without an edge and ONESHOT_MISSED is pending.
Before the armed edge, and in another state, nothing changes. No switch waits for this cadence where it fires or misses.
The output-ended mark is the model's (assumption 7), and so is that the outputs of the tick wait for this command, which
endEvent and settleTick carry out (assumption 6). -/
def Obligations.OneshotFiresOrMisses : Prop :=
  (∀ (n : Fin 8) (s : State),
    (∀ k e, s.cad[n].st = .armed k e →
        s.time.total < e * 2 ^ 32 ∨
          (((s.cadRec n).policy = .always ∨ s.servo.traced = true) ∧ ¬ s.mayFire n)) →
      exec (.oneshotFire n) s = .next s) ∧
  ∀ (n : Fin 8) (s : State) (k e : Nat), s.cad[n].st = .armed k e → e * 2 ^ 32 ≤ s.time.total →
    (∀ q ∈ s.switch, q.trigger ≠ .atEdge n) →
    let r := s.cadRec n
    (r.policy = .always ∨ s.servo.traced = true → s.mayFire n → r.endTime k < 2 ^ 48 * 10 ^ 9 →
      ∃ t : State, exec (.oneshotFire n) s = .next t ∧ s.serializersTold t n k e ∧
        t.cad =
          s.cad.set n
            { st := .done
              pulse := some (if r.shape = .pulse then r.edgeTime k + r.width else r.fallTime k)
              last := some (k, e)
              endedNow := false } ∧
        t.isPending .oneshotDone = true ∧ t.isPending .oneshotMissed = s.isPending .oneshotMissed ∧
        (s.view = none → t.pins = s.pins) ∧ t.time = s.time ∧ t.servo = s.servo ∧ t.banks = s.banks ∧
        t.active = s.active ∧ t.switch = s.switch) ∧
      (r.policy = .whenTraced → s.servo.traced = false →
        exec (.oneshotFire n) s =
          .next
            (endEvent s (raise .oneshotMissed { s with cad := s.cad.set n { s.cad[n] with st := .done } })))

/-- R130, R131, R150: ARM_ONESHOT and DISARM_ONESHOT, row by row: a cadence outside 0 to 7, a switch that waits for the
cadence, a record that is not ONE_SHOT, an edge beyond the counter's range, an edge at or before the present counter
value, and the arming; DISARM_ONESHOT makes the state IDLE, and an output that is active runs on. That these responses
have no body is the model's where a command is refused (assumption 16). That an output runs on in IDLE follows R131
against R124 and is the model's (assumption 21). That the outputs of a tick settle when the request takes its last event
away is the model's (settleTick, assumption 6). -/
def Obligations.ArmingFollowsItsTable : Prop :=
  ∀ (s : State) (r : Request) (rest : List Request),
    let s1 : State := { s with requests := rest }
    let reply (st : Status) (u : State) : State := respond r { st := st, body := [], after := u }
    (s.carriesOut .armOneshot r rest →
      (8 ≤ (byteAt r.body 0).toNat → exec .armOneshot s = .next (reply .badIndex s1)) ∧
        ∀ n : Fin 8, (byteAt r.body 0).toNat = n.val →
          let c := s.cadRec n
          let k := fieldAt r.body 1 10
          let waits := ∃ q ∈ s.switch, q.trigger = .atEdge n
          (waits → exec .armOneshot s = .next (reply .switchPending s1)) ∧
            (¬ waits → c.mode ≠ .oneShot → exec .armOneshot s = .next (reply .wrongState s1)) ∧
            (¬ waits → c.mode = .oneShot → 2 ^ 48 * 10 ^ 9 ≤ c.edgeTime k →
              exec .armOneshot s = .next (reply .badValue s1)) ∧
            (¬ waits → c.mode = .oneShot → c.edgeTime k < 2 ^ 48 * 10 ^ 9 →
              c.edgeTime k * 2 ^ 32 ≤ s.time.total → exec .armOneshot s = .next (reply .tooLate s1)) ∧
            (¬ waits → c.mode = .oneShot → c.edgeTime k < 2 ^ 48 * 10 ^ 9 →
              s.time.total < c.edgeTime k * 2 ^ 32 →
              exec .armOneshot s =
                .next
                  (reply .ok
                    (settleTick
                      { s1 with cad := s.cad.set n { s.cad[n] with st := .armed k (c.edgeTime k) } })))) ∧
      (s.carriesOut .disarmOneshot r rest →
        (8 ≤ (byteAt r.body 0).toNat → exec .disarmOneshot s = .next (reply .badIndex s1)) ∧
          ∀ n : Fin 8, (byteAt r.body 0).toNat = n.val →
            let waits := ∃ q ∈ s.switch, q.trigger = .atEdge n
            (waits → exec .disarmOneshot s = .next (reply .switchPending s1)) ∧
              (¬ waits → (s.cadRec n).mode ≠ .oneShot → exec .disarmOneshot s = .next (reply .wrongState s1)) ∧
              (¬ waits → (s.cadRec n).mode = .oneShot →
                exec .disarmOneshot s =
                  .next (reply .ok (settleTick { s1 with cad := s.cad.set n { s.cad[n] with st := .idle } }))))

/-! ### Banks, lines and labels -/

/-- R148, R149, R151: SWITCH_BANK, row by row; an AT_TIME request whose time is at or before the counter is due at once.
That these responses have no body is the model's where a command is refused (assumption 16), and so is that the outputs
of a tick settle when a cancel takes its last event away (settleTick, assumption 6). -/
def Obligations.SwitchRequestsAreAnswered : Prop :=
  ∀ (s : State) (r : Request) (rest : List Request), s.carriesOut .switchBank r rest →
    let s1 : State := { s with requests := rest }
    let reply (st : Status) (u : State) : State := respond r { st := st, body := [], after := u }
    let trig := (byteAt r.body 1).toNat
    let sec := fieldAt r.body 3 6
    let ns := fieldAt r.body 9 4
    (4 ≤ (byteAt r.body 0).toNat → exec .switchBank s = .next (reply .badIndex s1)) ∧
      ∀ b : Fin 4, (byteAt r.body 0).toNat = b.val →
        (trig ≠ 1 → trig ≠ 2 → exec .switchBank s = .next (reply .badValue s1)) ∧
          (trig = 1 ∨ trig = 2 →
            (∀ q, s.switch = some q →
              (b ≠ s.active → exec .switchBank s = .next (reply .switchPending s1)) ∧
                (b = s.active → q.due = true → exec .switchBank s = .next (reply .tooLate s1)) ∧
                (b = s.active → q.due = false →
                  exec .switchBank s = .next (reply .ok (settleTick { s1 with switch := none })))) ∧
              (s.switch = none →
                (b = s.active → exec .switchBank s = .next (reply .ok s1)) ∧
                  (b ≠ s.active → trig = 1 →
                    (8 ≤ (byteAt r.body 2).toNat → exec .switchBank s = .next (reply .badIndex s1)) ∧
                      ∀ c : Fin 8, (byteAt r.body 2).toNat = c.val →
                        let q : SwitchReq :=
                          { target := b, trigger := .atEdge c, due := false, dueTick := false }
                        ((∃ k e, s.cad[c].st = .running k e ∨ s.cad[c].st = .armed k e) →
                          exec .switchBank s = .next (reply .ok { s1 with switch := some q })) ∧
                          ((∀ k e, s.cad[c].st ≠ .running k e ∧ s.cad[c].st ≠ .armed k e) →
                            exec .switchBank s = .next (reply .wrongState s1))) ∧
                  (b ≠ s.active → trig = 2 →
                    (10 ^ 9 ≤ ns → exec .switchBank s = .next (reply .badValue s1)) ∧
                      (ns < 10 ^ 9 →
                        exec .switchBank s =
                          .next
                            (reply .ok
                              { s1 with
                                switch :=
                                  some
                                    { target := b
                                      trigger := .atTime sec ns
                                      due := decide ((sec * 10 ^ 9 + ns) * 2 ^ 32 ≤ s.time.total)
                                      dueTick := false } })))))

/-- R151, R155, R141, R173, R174: an AT_TIME switch that the counter has reached, or that was due at its request and has
had a tick since, is made, and one that is not reached, or is due and waits for that tick, stays: the target is active,
no switch is pending, BANK_SWITCHED is pending; a cadence whose records are equal goes on untouched; one whose records
differ ends its pulse, keeps its last edge and starts from the incoming record, its first edge the smallest at or after
S that is later than the value of the tick before; a serializer with a changed configuration loses its word, and one
with an equal configuration loses a word begun at this very tick by a cadence that the switch restarts; the STEP_SEEN
value of a word so lost returns to the flag; any other word goes on. No other state sees it. The value of the tick
before, and that the outputs of the tick wait for this command, are the model's (assumptions 7 and 6), and so is that a
word begun at this tick is judged by the records as they stand at the switch, where its cadence's record was rewritten
since the edge (assumption 25). -/
def Obligations.SwitchAtTimeMovesFormat : Prop :=
  ∀ (s : State) (q : SwitchReq) (sec ns : Nat), s.switch = some q → q.trigger = .atTime sec ns →
    ((q.due = true ∧ q.dueTick = false) ∨ (q.due = false ∧ s.time.total < (sec * 10 ^ 9 + ns) * 2 ^ 32) →
      exec .atTimeReached s = .next s) ∧
    ((q.due = false ∧ (sec * 10 ^ 9 + ns) * 2 ^ 32 ≤ s.time.total) ∨ (q.due = true ∧ q.dueTick = true) →
    let out := s.banks[s.active]
    let inc := s.banks[q.target]
    let least := max (sec * 10 ^ 9 + ns) (s.prevTime / 2 ^ 32 + 1)
    ∃ t : State, exec .atTimeReached s = .next t ∧ t.active = q.target ∧ t.switch = none ∧
      t.isPending .bankSwitched = true ∧ t.banks = s.banks ∧ t.time = s.time ∧ t.elapsed = s.elapsed ∧
      t.servo = s.servo ∧ t.exch = s.exch ∧ t.sources = s.sources ∧ t.cap = s.cap ∧ (s.view = none → t.pins = s.pins) ∧
      (∀ n : Fin 8,
        (out.cad[n] = inc.cad[n] → t.cad[n] = s.cad[n]) ∧
          (out.cad[n] ≠ inc.cad[n] →
            let r : CadRec := inc.cad[n]
            t.cad[n].pulse = none ∧ t.cad[n].last = s.cad[n].last ∧
              (r.mode = .off → t.cad[n].st = .off) ∧ (r.mode = .oneShot → t.cad[n].st = .idle) ∧
              (r.mode = .continuous → r.policy = .whenTraced → s.servo.traced = false →
                t.cad[n].st = .waiting) ∧
              (r.mode = .continuous → r.policy = .always ∨ s.servo.traced = true →
                t.cad[n].st = .running (r.firstAt least) (r.edgeTime (r.firstAt least))))) ∧
      ∀ m : Fin 2,
        let c : LabelCfg := out.labels[m]
        let x := s.ser[m]
        let y := t.ser[m]
        (x.word = none → y.word = none ∧ y.stepSeen = x.stepSeen) ∧
          ∀ w, x.word = some w →
            let lost : Prop := c ≠ inc.labels[m] ∨ (w.count = 0 ∧ out.cad[c.cadence] ≠ inc.cad[c.cadence])
            (lost →
              y.word = none ∧
                (w.count < c.delay + 96 * c.period → y.stepSeen = (x.stepSeen || w.stepSeen)) ∧
                (c.delay + 96 * c.period ≤ w.count → y.stepSeen = x.stepSeen)) ∧
              (¬ lost → y.word = some w ∧ y.stepSeen = x.stepSeen))

/-- R141, R152 to R155, R125: a pending switch reached by an edge, a firing, a miss, a step or a catch-up advance. It is
made with S the time of that edge or of the request: every changed cadence starts at its smallest edge at or after S
that is later than the value taken for the tick before, which is the value before the tick that reached the edge, and
the counter's own value after a step or a catch-up. The word that the trigger edge begins goes on where its label
configuration and its cadence's record are equal in both banks (R174), and with a changed configuration (R173), or an
equal one and a changed record, it is lost and its STEP_SEEN value stands in the flag again. A step or a catch-up that
leaves the time of an AT_TIME switch ahead, and a step with an AT_EDGE switch on a RUNNING cadence, leave the switch
pending. The value of the tick before, the order in which an edge tells the serializers and the switch, and that a due
switch is made at a step whatever its value, are the model's (assumptions 7, 8 and 12). -/
def Obligations.SwitchReachedByEdgeOrStep : Prop :=
  ∀ (s : State) (q : SwitchReq), s.switch = some q →
    let out := s.banks[s.active]
    let inc := s.banks[q.target]
    let made (t : State) (least : Nat) : Prop :=
      t.active = q.target ∧ t.switch = none ∧ t.isPending .bankSwitched = true ∧ t.banks = s.banks ∧
        ∀ n : Fin 8, out.cad[n] ≠ inc.cad[n] →
          t.cad[n].st = startState inc.cad[n] s.servo.traced least ∧ t.cad[n].pulse = none
    let least (e before : Nat) : Nat := max e (before / 2 ^ 32 + 1)
    (∀ (n : Fin 8) (k e : Nat), q.trigger = .atEdge n → e * 2 ^ 32 ≤ s.time.total →
      let before := if e * 2 ^ 32 ≤ s.prevTime then s.prevTime2 else s.prevTime
      let untouched (t : State) : Prop := ∀ m : Fin 8, m ≠ n → out.cad[m] = inc.cad[m] → t.cad[m] = s.cad[m]
      let relabelled (t : State) : Prop :=
        ∀ m : Fin 2, out.labels[m] ≠ inc.labels[m] →
          t.ser[m].word = none ∧
            (0 < out.labels[m].delay + 96 * out.labels[m].period →
              t.ser[m].stepSeen =
                match s.ser[m].word with
                | some w =>
                  s.ser[m].stepSeen ||
                    (decide (w.count < out.labels[m].delay + 96 * out.labels[m].period) && w.stepSeen)
                | none => s.ser[m].stepSeen)
      let begun (t : State) : Prop :=
        ∀ m : Fin 2, out.labels[m] = inc.labels[m] → out.labels[m].enable = true → out.labels[m].cadence = n →
          s.ser[m].word = none → 0 < out.labels[m].delay + 96 * out.labels[m].period →
          (out.cad[n] = inc.cad[n] →
            t.ser[m].stepSeen = false ∧
              t.ser[m].word =
                some
                  { bits := composeBits s n k e s.ser[m].stepSeen, index := k, stepSeen := s.ser[m].stepSeen,
                    count := 0 }) ∧
            (out.cad[n] ≠ inc.cad[n] → t.ser[m].word = none ∧ t.ser[m].stepSeen = s.ser[m].stepSeen)
      (s.cad[n].st = .running k e → s.cad[n].pulse = none → s.cad[n].endedNow = false →
        ∃ t : State, exec (.cadenceEdge n) s = .next t ∧ made t (least e before) ∧ untouched t ∧ relabelled t ∧
          begun t ∧ t.cad[n].last = some (k, e) ∧
          (out.cad[n] = inc.cad[n] → t.cad[n].st = .running (k + 1) (out.cad[n].edgeTime (k + 1)))) ∧
        (s.cad[n].st = .armed k e →
          s.mayFire n ∨ (out.cad[n].policy = .whenTraced ∧ s.servo.traced = false) →
          ∃ t : State, exec (.oneshotFire n) s = .next t ∧ made t (least e before) ∧ untouched t ∧ relabelled t ∧
            (out.cad[n] = inc.cad[n] → t.cad[n].st = .done) ∧
            (out.cad[n].policy = .always ∨ s.servo.traced = true →
              begun t ∧ t.cad[n].last = some (k, e) ∧ t.isPending .oneshotDone = true) ∧
            (out.cad[n].policy = .whenTraced → s.servo.traced = false →
              t.cad[n].last = s.cad[n].last ∧ t.isPending .oneshotMissed = true))) ∧
      ∀ (c : Instr) (inp : TickIn),
        (∃ r v, s.steps = [r] ∧ r.result (s.time.advance (incrementOf s.servo.a)) = some v ∧ c = .stepTick inp) ∨
          (∃ n, c = .clockLoss n inp ∧ s.clock = .normal) →
        ∃ t : State, exec c s = .next t ∧
          let now := t.time.total
          (∀ sec ns, q.trigger = .atTime sec ns →
            (q.due = true ∨ (sec * 10 ^ 9 + ns) * 2 ^ 32 ≤ now → made t (least (sec * 10 ^ 9 + ns) now)) ∧
              (q.due = false → now < (sec * 10 ^ 9 + ns) * 2 ^ 32 →
                t.active = s.active ∧ t.switch = some { q with dueTick := false })) ∧
            ∀ m : Fin 8, q.trigger = .atEdge m →
              (∀ k e, s.cad[m].st = .armed k e →
                (e * 2 ^ 32 ≤ now → made t (least e now) ∧ t.isPending .oneshotMissed = true) ∧
                  (now < e * 2 ^ 32 → t.active = s.active ∧ t.switch.map SwitchReq.trigger = some q.trigger)) ∧
                ∀ k e, s.cad[m].st = .running k e →
                  t.active = s.active ∧ t.switch.map SwitchReq.trigger = some q.trigger

/-- R166, R66 and the time label word of 11.6: the fields of a composed word, bit 0 first and most significant; the
civil offset is the selected record's when that is valid, else the CIVIL record's. R168, R169: while a word is shown,
at tick count d + i × p + j the data output is bit i, most significant first, and the clock stands at its idle level
for the first floor(p / 2) ticks of the bit and at the other level after; in the start delay, without a word and when
DISABLED the outputs stand at their idle levels. From d + 96 × p on the word is complete: the serializer is IDLE and
its outputs are at their idle levels. LABEL_WORD_COMPLETE removes that word and changes nothing else; before that tick
it does nothing. That a word which counts as IDLE from its last tick on is held until that command is the model's
(assumption 19). -/
def Obligations.LabelWordsAreComposedAndShifted : Prop :=
  (∀ (s : State) (n : Fin 8) (k e : Nat) (seen : Bool),
    let w := composeBits s n k e seen
    (∀ r, s.selected = some r → r.civilValid = true →
      w.extractLsb' 48 48 = BitVec.ofInt 48 ((e / 10 ^ 9 : Nat) + r.civil) ∧ w.getLsbD 0 = true) ∧
      (s.selected = none ∨ (∃ r, s.selected = some r ∧ r.civilValid = false) →
        w.extractLsb' 48 48 = BitVec.ofInt 48 ((e / 10 ^ 9 : Nat) + s.civil) ∧ w.getLsbD 0 = false) ∧
      (w.extractLsb' 8 40).toNat = k % 2 ^ 40 ∧ (w.extractLsb' 5 3).toNat = n.val ∧
      w.getLsbD 4 = s.servo.locked ∧ w.getLsbD 3 = s.servo.traced ∧ w.getLsbD 2 = seen ∧
      w.getLsbD 1 = decide (s.clock ≠ .normal)) ∧
  (∀ (c : LabelCfg) (x : Serializer) (w : LabelWord), x.word = some w → c.enable = true →
    let idle := decide (c.edge = .falling)
    (w.count < c.delay ∨ c.delay + 96 * c.period ≤ w.count → x.outputs c = (false, idle)) ∧
      ∀ i j : Nat, i < 96 → j < c.period → w.count = c.delay + i * c.period + j →
        x.outputs c = (w.bits.getMsbD i, if j < c.period / 2 then idle else !idle)) ∧
    (∀ (c : LabelCfg) (x : Serializer),
      (c.enable = false → x.outputs c = (false, false)) ∧
        (c.enable = true → x.word = none → x.outputs c = (false, decide (c.edge = .falling)))) ∧
    ∀ (m : Fin 2) (s : State),
      (∀ w, s.ser[m].word = some w → (s.label m).delay + 96 * (s.label m).period ≤ w.count →
        exec (.labelWordComplete m) s = .next { s with ser := s.ser.set m { s.ser[m] with word := none } }) ∧
        ((∀ w, s.ser[m].word = some w → w.count < (s.label m).delay + 96 * (s.label m).period) →
          exec (.labelWordComplete m) s = .next s)

/-! ### Capture lines -/

/-- R178, R179, R181, R182, R188: a sample different from the accepted level makes a candidate with the counter's
seconds and nanoseconds; one equal to it discards the candidate; a candidate with its run count reached is accepted,
and when the edge select names its direction the stamp joins the ring: in CONTINUOUS mode the oldest of 4 leaving with
CAPTURE_FULL, in ONE_SHOT mode up to the fourth, which makes the line FULL with CAPTURE_FULL; a FULL line stores
nothing. Stored or not, the stamp is then compared with the bound cadence. In every other state of the line these
commands change nothing: without a candidate there is no acceptance, nor while the run count is below the qualification
or the sample is not the candidate's level; and a run count of q is reached by q ticks of that level after the one that
made the candidate, every tick of another level leaving it as it is. That a line holds its latest sample between
these commands, and that CAPTURE_FULL comes before the comparison's alarm, are the model's (assumptions 7 and 8). -/
def Obligations.CaptureMakesAndAccepts : Prop :=
  ∀ (n : Fin 4) (s : State) (a : Bool),
    let x := s.cap[n]
    (x.qual = .idle ∨ x.qual = .seeding ∨ (x.qual = .live a none ∧ x.sample = a) ∨
          (∃ c, x.qual = .live a (some c) ∧ x.sample ≠ a) →
        exec (.captureInputChange n) s = .next s) ∧
      (x.qual = .idle ∨ x.qual = .seeding ∨ x.qual = .live a none ∨
          (∃ c, x.qual = .live a (some c) ∧ (x.sample ≠ c.level ∨ c.run < s.capRec[n].qual)) →
        exec (.captureAccept n) s = .next s) ∧
      (∀ (inp : TickIn) (c : Cand), s.steps = [] → s.capRec[n].sel ≠ .none → x.qual = .live a (some c) →
        ∃ t, exec (.tick inp) s = .next t ∧
          t.cap[n].qual = .live a (some { c with run := if inp.cap[n] = c.level then c.run + 1 else c.run })) ∧
      (x.qual = .live a none → x.sample ≠ a →
      exec (.captureInputChange n) s =
        .next
          (s.setCap n
            { x with
              qual :=
                .live a
                  (some
                    { level := x.sample
                      stamp := { sec := s.time.sec, ns := s.time.ns, falling := !x.sample, beforeStep := false }
                      run := 0 }) })) ∧
      (∀ c, x.qual = .live a (some c) → x.sample = a →
        exec (.captureInputChange n) s = .next (s.setCap n { x with qual := .live a none })) ∧
      ∀ c, x.qual = .live a (some c) → x.sample = c.level → s.capRec[n].qual ≤ c.run →
        let named : Bool :=
          decide (s.capRec[n].sel = .both) || (decide (s.capRec[n].sel = .rising) && c.level) ||
            (decide (s.capRec[n].sel = .falling) && !c.level)
        let y : CapLine := { x with qual := .live c.level none }
        let takes (u : State) : Prop := exec (.captureAccept n) s = .next (comparePhase n c.stamp u)
        (named = false → exec (.captureAccept n) s = .next (s.setCap n y)) ∧
          (named = true → x.st = .run → x.ring.length < 3 →
            takes (s.setCap n { y with ring := x.ring ++ [c.stamp] })) ∧
          (named = true → x.st = .run → x.ring.length = 3 → s.capRec[n].mode = .continuous →
            takes (s.setCap n { y with ring := x.ring ++ [c.stamp] })) ∧
          (named = true → x.st = .run → x.ring.length = 4 → s.capRec[n].mode = .continuous →
            takes (raise (.captureFull n) (s.setCap n { y with ring := x.ring.tail ++ [c.stamp] }))) ∧
          (named = true → x.st = .run → x.ring.length = 3 → s.capRec[n].mode = .oneShot →
            takes (raise (.captureFull n) (s.setCap n { y with ring := x.ring ++ [c.stamp], st := .full }))) ∧
          (named = true → x.st = .full → takes (s.setCap n y))

/-- R187: the nearest edge of a legal record is edge 0 before the phase; else, with j the largest index whose edge is at
or before x, it is E(j) when x − E(j) is at most E(j + 1) − x and E(j + 1) otherwise. No edge is nearer, and on a tie it
is the earlier. -/
def Obligations.NearestEdgeIsNearest : Prop :=
  ∀ (r : CadRec) (x : Nat), r.legal →
    (x < r.phase → r.nearestEdge x = r.edgeTime 0) ∧
      (∀ j, r.phase ≤ x → r.edgeTime j ≤ x → (∀ i, r.edgeTime i ≤ x → i ≤ j) →
        (x - r.edgeTime j ≤ r.edgeTime (j + 1) - x → r.nearestEdge x = r.edgeTime j) ∧
          (r.edgeTime (j + 1) - x < x - r.edgeTime j → r.nearestEdge x = r.edgeTime (j + 1))) ∧
      (∃ j, r.nearestEdge x = r.edgeTime j) ∧
      ∀ k, ((x : Int) - r.nearestEdge x).natAbs ≤ ((x : Int) - r.edgeTime k).natAbs ∧
        (((x : Int) - r.nearestEdge x).natAbs = ((x : Int) - r.edgeTime k).natAbs →
          r.nearestEdge x ≤ r.edgeTime k)

/-- R188, R189: no comparison is made without a bound cadence, with a record that is OFF, or with a stamp marked
before a step; otherwise the last phase error is the stamp less the nearest edge, and the in-window flag follows |e|
against 2^(i+3) ns, PHASE_ALARM raised only at a move from inside to outside; window index 0 makes no test. -/
def Obligations.PhaseAlarmOnLeavingWindow : Prop :=
  ∀ (n : Fin 4) (st : CapStamp) (s : State),
    let x := s.cap[n]
    let w := s.capRec[n].window
    (s.capRec[n].bound = none → comparePhase n st s = s) ∧
      ∀ c, s.capRec[n].bound = some c →
        let r := s.cadRec c
        let e : Int := ((st.sec * 10 ^ 9 + st.ns : Nat) : Int) - r.nearestEdge (st.sec * 10 ^ 9 + st.ns)
        (r.mode = .off ∨ st.beforeStep = true → comparePhase n st s = s) ∧
          (r.mode ≠ .off → st.beforeStep = false →
            (w = 0#4 → comparePhase n st s = s.setCap n { x with phase := some e }) ∧
              (w ≠ 0#4 → e.natAbs ≤ 2 ^ (w.toNat + 3) →
                comparePhase n st s = s.setCap n { x with phase := some e, inWindow := true }) ∧
              (w ≠ 0#4 → 2 ^ (w.toNat + 3) < e.natAbs → x.inWindow = true →
                comparePhase n st s =
                  raise (.phaseAlarm n) (s.setCap n { x with phase := some e, inWindow := false })) ∧
              (w ≠ 0#4 → 2 ^ (w.toNat + 3) < e.natAbs → x.inWindow = false →
                comparePhase n st s = s.setCap n { x with phase := some e, inWindow := false }))

/-! ### Management -/

/-- R194, R195, R196, R198: no request is begun while a RESTART is under way or the queue is empty; a request whose body
is shorter than its command needs, or runs past the frame, is BAD_VALUE; then one from a sender that is not permitted is
NOT_PERMITTED, both without effect; a code that names no command is BAD_COMMAND. A station other than a manager may
issue the reading commands alone, READ_CAPTURE without rearm, unless the manager list is empty. These three responses
have an empty body. R194, R13, R8: a response is handed to the ordinary-class queue of the port its request came in on:
it joins a queue with room, is discarded at a DOWN port, and at a full queue with QUEUE_DROP. It goes to the request's
sender from the station address with the request's tag control information, tag and command code, its status and its
body, padded to 60 bytes. That a command whose code the oldest request does not carry, and BAD_COMMAND_REQUEST on a good
code or an empty queue, change nothing is the model's (assumption 1). R209: the codes of the commands and of the
statuses, the lengths of the request bodies, and where a request holds its tag, code and body. -/
def Obligations.AgentChecksAndAnswers : Prop :=
  let names : List Command :=
    [.identify, .readStatus, .readTable, .writeTable, .switchBank, .stepTime, .setTime, .setTrim, .armOneshot,
      .disarmOneshot, .readCapture, .clearEvents, .restart]
  (commandOf 0 = none ∧ (∀ i : Nat, commandOf (i + 1) = names[i]?) ∧
      names.map Command.bodySize = [0, 0, 4, 4, 13, 8, 10, 4, 11, 1, 2, 2, 0] ∧
      [Status.ok, .clamped, .badCommand, .badTable, .badIndex, .badValue, .notPermitted, .wrongState, .switchPending,
          .tooLate].map Status.code = List.range 10) ∧
  (∀ r : Request,
    let content := r.bytes.take (r.bytes.length - 4)
    r.data = content.drop (if fieldAt content 12 2 = 0x8100 then 18 else 14) ∧ r.tag = fieldAt r.data 2 2 ∧
      r.code = (byteAt r.data 4).toNat ∧ r.bodyLen = fieldAt r.data 6 2 ∧
      r.body = (r.data.drop 8).take (fieldAt r.data 6 2)) ∧
  (∀ (c : Command) (s : State),
    (s.restart ≠ .idle ∨ s.requests = [] → exec c.instr s = .next s ∧ exec .badCommandRequest s = .next s) ∧
      (∀ (r : Request) (rest : List Request), s.restart = .idle → s.requests = r :: rest →
        let refuse (st : Status) : State := respond r { st := st, body := [], after := { s with requests := rest } }
        let short : Prop := r.data.length - 8 < r.bodyLen ∨ r.bodyLen < c.bodySize
        (commandOf r.code = some c →
          (short → exec c.instr s = .next (refuse .badValue)) ∧
            (¬ short → permitted s c r.src r.body = false → exec c.instr s = .next (refuse .notPermitted)) ∧
            exec .badCommandRequest s = .next s) ∧
          (commandOf r.code = none → exec .badCommandRequest s = .next (refuse .badCommand)) ∧
          (commandOf r.code ≠ some c → exec c.instr s = .next s)) ∧
      ∀ (src : Addr) (body : List Byte),
        permitted s c src body = true ↔
          (∀ i : Fin 4, s.managers[i] = 0) ∨ (∃ i : Fin 4, s.managers[i] ≠ 0 ∧ s.managers[i] = src) ∨
            c = .identify ∨ c = .readStatus ∨ c = .readTable ∨ (c = .readCapture ∧ byteAt body 1 = 0#8)) ∧
  ∀ (r : Request) (a : Reply),
    let x := a.after.port r.port
    let frame := responseFrame a.after r a.st a.body
    (x.link = .up → x.ordinaryQ.length < 32 →
      respond r a =
        a.after.setPort r.port
          { x with ordinaryQ := x.ordinaryQ ++ [{ bytes := frame, origin := .response false }] }) ∧
      (x.link = .down → respond r a = a.after) ∧
      (x.link = .up → 32 ≤ x.ordinaryQ.length → respond r a = raise (.queueDrop r.port) a.after) ∧
      (a.body.length < 65536 →
        let f := factsOf frame
        let d := frame.drop f.dataPos
        f.dst = r.src ∧ f.src = a.after.station ∧ f.tci = r.tci ∧ f.etherType = 0x9A3C#16 ∧ byteAt d 0 = 1#8 ∧
          byteAt d 1 = 2#8 ∧ fieldAt d 2 2 = r.tag ∧ (byteAt d 4).toNat = r.code ∧
          (byteAt d 5).toNat = a.st.code ∧ fieldAt d 6 2 = a.body.length ∧ slice d 8 a.body.length = a.body ∧
          60 ≤ frame.length)

/-- R197, R202, R199, R185: what the reading commands answer. IDENTIFY: vendor code 0x0B7A, part code 2612, revision 1,
the station address, the timing identity and port 1. READ_STATUS: 81 bytes with every item at its offset: the servo
state, LOCKED and traced, the selected source, the last offset, a, the clock monitor, the active bank, the pending
switch with its trigger, due flag and, for AT_EDGE, the edge its cadence holds, the pending masks and the counters; an
absent item reads as zero. READ_TABLE: the table reference and the entries in index order, or the status of the first
check that fails with a count of 0. READ_CAPTURE: the line as it stands, and with rearm 1 the ring emptied and the line
in RUN. That a refused READ_CAPTURE has an empty body is the model's (assumption 16), and so is that the items of one
READ_STATUS, and the entries of one READ_TABLE, are all read from one state, where R197 and R202 let other blocks act
between them (assumption 2). -/
def Obligations.ReadingCommandsAnswer : Prop :=
  ∀ (s : State) (r : Request) (rest : List Request),
    let s1 : State := { s with requests := rest }
    let body := r.body
    (s.carriesOut .identify r rest →
      exec .identify s =
        .next
          (respond r
            { st := .ok
              body :=
                [0x0B, 0x7A, 0x0A, 0x34, 1] ++ addrBytes s.station ++ [0x6A, 0x1C] ++ addrBytes s.station ++ [0, 1]
              after := s1 })) ∧
      (s.carriesOut .readStatus r rest →
        ∃ b : List Byte, exec .readStatus s = .next (respond r { st := .ok, body := b, after := s1 }) ∧
          b.length = 81 ∧ (byteAt b 0).toNat =
              (match s.servo.st with
                | .free => 0
                | .acquire => 1
                | .track => 2
                | .holdover => 3) ∧ (byteAt b 1).getLsbD 0 = s.servo.locked ∧
          (byteAt b 1).getLsbD 1 = s.servo.traced ∧
          (s.selected = none → slice b 2 11 = List.replicate 11 0) ∧
          (∀ x, s.selected = some x →
            byteAt b 2 = 1#8 ∧ fieldAt b 3 8 = x.sender.toNat ∧ fieldAt b 11 2 = x.portNo.toNat) ∧
          (s.exch.lastOffset = none → slice b 13 5 = List.replicate 5 0) ∧
          (∀ o, s.exch.lastOffset = some o →
            byteAt b 13 = 1#8 ∧ (o.ns.natAbs < 2 ^ 31 → signedOf 32 (fieldAt b 14 4) = o.ns)) ∧
          (s.servo.a.natAbs ≤ 100000 → signedOf 32 (fieldAt b 18 4) = s.servo.a) ∧
          (byteAt b 22 = 1#8 ↔ s.clock ≠ .normal) ∧ (byteAt b 23).toNat = s.active.val ∧
          (s.switch = none → slice b 24 35 = List.replicate 35 0) ∧
          (∀ q, s.switch = some q →
            byteAt b 24 = 1#8 ∧ (byteAt b 25).toNat = q.target.val ∧ (byteAt b 38 = 1#8 ↔ q.due = true) ∧
              (∀ c, q.trigger = .atEdge c →
                byteAt b 26 = 1#8 ∧ (byteAt b 27).toNat = c.val ∧ slice b 28 10 = List.replicate 10 0 ∧
                  ∀ k e, s.cad[c].st = .running k e ∨ s.cad[c].st = .armed k e → k < 2 ^ 80 →
                    e < 2 ^ 48 * 10 ^ 9 →
                    fieldAt b 39 10 = k ∧ fieldAt b 49 6 = e / 10 ^ 9 ∧ fieldAt b 55 4 = e % 10 ^ 9) ∧
              ∀ sec ns, q.trigger = .atTime sec ns →
                byteAt b 26 = 2#8 ∧ byteAt b 27 = 0#8 ∧ slice b 39 20 = List.replicate 20 0 ∧
                  (sec < 2 ^ 48 → ns < 10 ^ 9 → fieldAt b 28 6 = sec ∧ fieldAt b 34 4 = ns)) ∧
          (∀ g : Fin 4, byteAt b (59 + g) = s.groups[g].pending) ∧
          (s.timeOk → fieldAt b 63 6 = s.time.sec ∧ fieldAt b 69 4 = s.time.ns) ∧
          fieldAt b 73 8 = s.elapsed.toNat) ∧
      (s.carriesOut .readTable r rest →
        let start := (byteAt body 2).toNat
        let count := (byteAt body 3).toNat
        let reply (st : Status) (b : List Byte) : State := respond r { st := st, body := b, after := s1 }
        (tableOf (byteAt body 0).toNat (byteAt body 1).toNat = none →
          exec .readTable s = .next (reply .badTable (body.take 3 ++ [0]))) ∧
          ∀ t, tableOf (byteAt body 0).toNat (byteAt body 1).toNat = some t →
            (t.entries ≤ start ∨ t.entries < start + count →
              exec .readTable s = .next (reply .badIndex (body.take 3 ++ [0]))) ∧
              (start < t.entries → start + count ≤ t.entries →
                exec .readTable s =
                  .next
                    (reply .ok
                      (body.take 4 ++ (List.range count).flatMap fun i => readEntry t (start + i) s1)))) ∧
      (s.carriesOut .readCapture r rest →
        (4 ≤ (byteAt body 0).toNat →
          exec .readCapture s = .next (respond r { st := .badIndex, body := [], after := s1 })) ∧
          ∀ n : Fin 4, (byteAt body 0).toNat = n.val →
            let x := s.cap[n]
            let answer (u : State) : State := respond r { st := .ok, body := captureBody x, after := u }
            (byteAt body 1 = 0#8 → exec .readCapture s = .next (answer s1)) ∧
              (byteAt body 1 = 1#8 →
                exec .readCapture s =
                  .next (answer { s1 with cap := s.cap.set n { x with ring := [], st := .run } })) ∧
              (2 ≤ (byteAt body 1).toNat →
                exec .readCapture s = .next (respond r { st := .badValue, body := [], after := s1 })))

/-- R199, R200, R54: WRITE_TABLE checks the table (SOURCES cannot be written), the range and the body's length, in this
order; then it applies the entries one at a time in rising index up to the first that is refused. The response gives the
number applied, and CLAMPED when every entry was applied and one was clamped. 11.4, R209: the identifiers of the tables,
the bank of those that have one (0 to 3; ignored for the others), and the entries of each table and their size. -/
def Obligations.WriteTableAppliesInOrder : Prop :=
  ((∀ bank : Nat,
      [1, 2, 3, 4, 8, 9, 10, 11].map (fun i => tableOf i bank) =
          [some .classify, some .port, some .servo, some .civil, some .capture, some .notify, some .managers,
            some .sources] ∧
        (∀ i : Nat, i = 0 ∨ 11 < i → tableOf i bank = none) ∧
        (4 ≤ bank → tableOf 5 bank = none ∧ tableOf 6 bank = none ∧ tableOf 7 bank = none)) ∧
    ∀ k : Fin 4,
      (tableOf 5 k.val = some (.cadence k) ∧ tableOf 6 k.val = some (.lines k) ∧ tableOf 7 k.val = some (.labels k)) ∧
        [TableId.classify, .port, .servo, .civil, .cadence k, .lines k, .labels k, .capture, .notify, .managers,
            .sources].map (fun t => (t.entries, t.size)) =
          [(32, 25), (2, 13), (1, 29), (1, 2), (8, 62), (12, 4), (2, 15), (4, 16), (4, 14), (4, 6), (8, 41)]) ∧
  ∀ (s : State) (r : Request) (rest : List Request), s.carriesOut .writeTable r rest →
    let s1 : State := { s with requests := rest }
    let body := r.body
    let start := (byteAt body 2).toNat
    let count := (byteAt body 3).toNat
    let reply (st : Status) (k : Nat) (u : State) : State :=
      respond r { st := st, body := body.take 3 ++ [BitVec.ofNat 8 k], after := u }
    let named := tableOf (byteAt body 0).toNat (byteAt body 1).toNat
    (named = none ∨ named = some .sources → exec .writeTable s = .next (reply .badTable 0 s1)) ∧
      ∀ t, named = some t → t ≠ .sources →
        (t.entries ≤ start ∨ t.entries < start + count → exec .writeTable s = .next (reply .badIndex 0 s1)) ∧
          (start < t.entries → start + count ≤ t.entries →
            (body.length < 4 + count * t.size → exec .writeTable s = .next (reply .badValue 0 s1)) ∧
              (4 + count * t.size ≤ body.length →
                ∀ (k : Nat) (u : Nat → State) (c : Nat → Bool), k ≤ count → u 0 = s1 →
                  (∀ i < k,
                    writeEntry t (start + i) (slice body (4 + i * t.size) t.size) (u i) = .applied (c i) (u (i + 1))) →
                  (k = count →
                    exec .writeTable s =
                      .next (reply (if (List.range k).any c then .clamped else .ok) k (u k))) ∧
                    ∀ st, k < count →
                      writeEntry t (start + k) (slice body (4 + k * t.size) t.size) (u k) = .refused st →
                      exec .writeTable s = .next (reply st k (u k))))

/-- R120, R121, R138, R139, R146, R150, R158, R160, R164, R172: what writing an entry of CADENCE, LINES or LABELS of
bank k does. While a switch is pending an entry of its target bank, and the trigger cadence of the active bank, are
refused; an entry with a field out of range is refused; a written width is brought into 8 to floor(P) − 8. In a bank
that is not active, and with an equal record, only the stored record changes. A changed cadence record of the active
bank ends the output and starts the cadence at its first edge later than the counter, its last edge kept; a changed
label configuration of the active bank abandons its serializer's word and returns the word's STEP_SEEN value. A written
route moves no pin within the write. That an output which a write ends is inactive at a tick whose events are not all
taken, and that the tick settles when a write takes its last event away, is the model's (endEvent, assumption 6). That a
blocked entry is refused before its fields are checked is the model's (assumption 16). -/
def Obligations.WrittenBankRecordsTakeEffect : Prop :=
  ∀ (s : State) (k : Fin 4) (b : List Byte),
    let old := s.banks[k]
    let store (x : Bank) : State := { s with banks := s.banks.set k x }
    let target : Prop := ∃ q ∈ s.switch, k = q.target
    let byte (i : Nat) : Nat := (byteAt b i).toNat
    (∀ n : Fin 8,
      let blocked : Prop := target ∨ (k = s.active ∧ ∃ q ∈ s.switch, q.trigger = .atEdge n)
      let result := writeEntry (.cadence k) n b s
      let num := fieldAt b 3 4
      let den := fieldAt b 7 4
      let bad : Prop :=
        2 < byte 0 ∨ 1 < byte 1 ∨ 1 < byte 2 ∨ num = 0 ∨ den = 0 ∨ 16777215 < num ∨ 16777215 < den ∨
          den * 10 ^ 7 < num
      (blocked → result = .refused .switchPending) ∧
        (¬ blocked → bad → result = .refused .badValue) ∧
        (¬ blocked → ¬ bad →
          ∃ r : CadRec, decodeCad b = some r ∧ r.num = num ∧ r.den = den ∧ r.phase = fieldAt b 11 4 ∧
            r.width = max 8 (min (den * 10 ^ 9 / num - 8) (fieldAt b 15 4)) ∧
            let clamped := decide (r.width ≠ fieldAt b 15 4)
            let stored := store { old with cad := old.cad.set n r }
            (k ≠ s.active ∨ old.cad[n] = r → result = .applied clamped stored) ∧
              (k = s.active → old.cad[n] ≠ r →
                result =
                  .applied clamped
                    (endEvent s
                      { stored with
                        cad :=
                          s.cad.set n
                            { st := startState r s.servo.traced (s.time.totalNs + 1), pulse := none,
                              last := s.cad[n].last, endedNow := false } })))) ∧
      (∀ n : Fin 12,
        let result := writeEntry (.lines k) n b s
        (target → result = .refused .switchPending) ∧
          (¬ target → decodeRoute b = none → result = .refused .badValue) ∧
          ∀ r, ¬ target → decodeRoute b = some r →
            result = .applied false (store { old with lines := old.lines.set n r })) ∧
      ∀ m : Fin 2,
        let result := writeEntry (.labels k) m b s
        let bad : Prop := 1 < byte 0 ∨ 7 < byte 1 ∨ 1 < byte 6 ∨ fieldAt b 4 2 < 2
        (target → result = .refused .switchPending) ∧
          (¬ target → bad → result = .refused .badValue) ∧
          (¬ target → ¬ bad →
            ∃ c : LabelCfg, decodeLabel b = some c ∧ c.enable = decide (byte 0 = 1) ∧ c.cadence.val = byte 1 ∧
              c.delay = fieldAt b 2 2 ∧ c.period = fieldAt b 4 2 ∧
              let stored := store { old with labels := old.labels.set m c }
              let returned : Bool :=
                match s.ser[m].word with
                | some w => decide (w.count < old.labels[m].delay + 96 * old.labels[m].period) && w.stepSeen
                | none => false
              (k ≠ s.active ∨ old.labels[m] = c → result = .applied false stored) ∧
                (k = s.active → old.labels[m] ≠ c →
                  result =
                    .applied false
                      { stored with
                        ser :=
                          s.ser.set m
                            { s.ser[m] with word := none, stepSeen := s.ser[m].stepSeen || returned } }))

/-- R5, R33, R54, R55, R77, R78, R101, R111, R180, R196, R201, R207: what writing an entry of the other tables does.
SERVO: a and I are clamped to the new max adjust; a new domain empties the source table, a new multiple removes the
records it has timed out, and selection is rerun when the selected record goes; a new interval code moves the schedule's
next expiry to the latest expiry plus the new interval and expires it when that has passed; a new holdover limit ends a
holdover that exceeds it. CAPTURE: each changed field has its effect on the line. PORT keeps the link state and refuses
what R5 names. CIVIL, NOTIFY, MANAGERS and CLASSIFY replace the record and nothing else. The SERVO clauses hold for
every combination of changed fields and are not the manual's alone: that all timed-out records go first and selection is
rerun once after them, and only when the selected one is among them, where R54 and R64 could also rerun it at each
removal, is the model's, and so is the order of the parts of the write (the clamp, the schedule moved, the removals, the
rerun, the schedule's expiry, the end of a holdover; assumption 8). That an expiry made by the write takes the present
reading as its own, where R78 names the expiry's reading, is the model's too (assumption 14), and so is that a capture
line holds its latest sample (assumption 7). -/
def Obligations.WrittenEntriesTakeEffect : Prop :=
  ∀ (s : State) (b : List Byte),
    (decodeServo b = none → writeEntry .servo 0 b s = .refused .badValue) ∧
      (∀ cfg, decodeServo b = some cfg → s.oneSelected →
        let m : Int := cfg.maxAdjust
        let interval : Elapsed := BitVec.ofNat 64 (16000000000 * 2 ^ (cfg.probeCode + 4).toNat)
        let gone (r : SourceRec) : Prop :=
          cfg.domain ≠ s.servoCfg.domain ∨
            cfg.multiple * (2000000000 * 2 ^ (max (-7) (min 7 r.interval) + 7).toNat) <
              (s.elapsed - r.lastHeard).toNat
        let loses : Prop := ∃ i : Fin 8, ∃ r ∈ s.sources[i], r.selected = true ∧ gone r
        ∃ (t : State) (v : Vector (Option SourceRec) 8),
          writeEntry .servo 0 b s = .applied (decide (100000 < fieldAt b 7 4)) t ∧
            (∀ i : Fin 8,
              (s.sources[i] = none → v[i] = none) ∧
                ∀ r, s.sources[i] = some r → (gone r → v[i] = none) ∧ (¬ gone r → v[i] = some r)) ∧
            let u : State :=
              { s with
                servoCfg := cfg
                sources := v
                servo :=
                  { s.servo with
                    a := max (-m) (min m s.servo.a)
                    integ := max (-(m * 65536)) (min (m * 65536) s.servo.integ) } }
            let moved : Schedule :=
              if cfg.probeCode = s.servoCfg.probeCode then s.exch.sched
              else
                match s.exch.sched with
                | .stopped => .stopped
                | .timed _ l => .timed (l + interval) l
                | .waiting _ l => .waiting (l + interval) l
            let u1 : State := { u with exch := { s.exch with sched := moved } }
            ∃ w x : State,
              (¬ loses → w = u1) ∧ (loses → w = rerunSelection s.selectedName u1) ∧
                (cfg.probeCode = s.servoCfg.probeCode → x = w) ∧
                (cfg.probeCode ≠ s.servoCfg.probeCode → exec .probeScheduleExpiry w = .next x) ∧
                (cfg.holdoverLimit = s.servoCfg.holdoverLimit → t = x) ∧
                (cfg.holdoverLimit ≠ s.servoCfg.holdoverLimit → exec .holdoverExpired x = .next t)) ∧
      (∀ n : Fin 4,
        (decodeCapture b = none → writeEntry .capture n b s = .refused .badValue) ∧
          ∀ r, decodeCapture b = some r →
            let old := s.capRec[n]
            let x := s.cap[n]
            let rung : Bool := decide (old.mode ≠ r.mode)
            let seeded : Bool := decide (old.sel ≠ r.sel ∨ old.qual ≠ r.qual)
            let bound : Bool := decide (old.bound ≠ r.bound ∨ old.window ≠ r.window)
            writeEntry .capture n b s =
              .applied false
                { s with
                  capRec := s.capRec.set n r
                  cap :=
                    s.cap.set n
                      { qual := if seeded then (if r.sel = .none then .idle else .seeding) else x.qual
                        sample := x.sample
                        ring := if rung then [] else x.ring
                        st := if rung then .run else x.st
                        phase := if bound then none else x.phase
                        inWindow := if bound then true else x.inWindow } }) ∧
      (∀ p : Port,
        let i : Nat :=
          match p with
          | .n => 0
          | .d => 1
        let asym := signedOf 32 (fieldAt b 8 4)
        let bad : Prop :=
          16777215 < fieldAt b 0 4 ∨ 16777215 < fieldAt b 4 4 ∨ (p = .d ∧ asym ≠ 0)
        (bad → writeEntry .port i b s = .refused .badValue) ∧
          (¬ bad →
            writeEntry .port i b s =
              .applied false
                (s.setPort p
                  { s.port p with ingressLat := fieldAt b 0 4, egressLat := fieldAt b 4 4, asym := asym }))) ∧
      writeEntry .civil 0 b s = .applied false { s with civil := signedOf 16 (fieldAt b 0 2) } ∧
      (∀ n : Fin 4,
        writeEntry .managers n b s =
            .applied false { s with managers := s.managers.set n (BitVec.ofNat 48 (fieldAt b 0 6)) } ∧
          (decodeNotify b = none → writeEntry .notify n b s = .refused .badValue) ∧
          ∀ c, decodeNotify b = some c →
            writeEntry .notify n b s = .applied false { s with notifyCfg := s.notifyCfg.set n c }) ∧
      ∀ i : Fin 32,
        (decodeClass b = none → writeEntry .classify i b s = .refused .badValue) ∧
          ∀ e, decodeClass b = some e →
            writeEntry .classify i b s = .applied false { s with classify := s.classify.set i e }

/-- R209 with R32, R54, R77, R101, R158, R164, R177, R207: which written entries are accepted, and the record that an
accepted one gives, field by field at the offsets of the layouts. A CLASSIFY entry with valid clear is the empty entry,
whatever else it holds. That a destination present byte of NOTIFY other than 0 is set is the model's (assumption 10). -/
def Obligations.WrittenBytesStandAtTheirOffsets : Prop :=
  ∀ b : List Byte,
    let byte (i : Nat) : Nat := (byteAt b i).toNat
    let bit (i j : Nat) : Bool := (byteAt b i).getLsbD j
    let iff {α : Type} (ok : Prop) (x : Option α) (holds : α → Prop) : Prop :=
      (¬ ok → x = none) ∧ (ok → ∃ r, x = some r ∧ holds r)
    let code := signedOf 8 (byte 2)
    ((bit 0 0 = false → decodeClass b = some ClassEntry.empty) ∧
      (bit 0 0 = true →
        iff
          ((bit 0 1 = true ∨ bit 0 2 = true) ∧
            (bit 1 1 = true → fieldAt b 14 2 < 4096 ∨ fieldAt b 14 2 = 65535) ∧ byte 20 ≤ 2 ∧
            (bit 1 4 = true → byte 21 < 32 ∧ byte 20 ≠ 0) ∧ (bit 1 5 = true → byte 22 < 128 ∧ byte 20 ≠ 0) ∧
            byte 23 ≤ 4 ∧ byte 24 ≤ 1 ∧ (1 ≤ byte 23 → byte 23 ≤ 3 → byte 20 ≠ 0) ∧
            (byte 20 = 1 → bit 1 3 = false) ∧
            (bit 1 3 = true ∨ byte 20 = 2 → bit 1 2 = true → fieldAt b 16 2 = 0x0800))
          (decodeClass b) fun e =>
          e.valid = true ∧ e.portN = bit 0 1 ∧ e.portD = bit 0 2 ∧
            e.dest =
              (if bit 1 0 then some (BitVec.ofNat 48 (fieldAt b 2 6), BitVec.ofNat 48 (fieldAt b 8 6)) else none) ∧
            e.vlan =
              (if bit 1 1 then
                some (if fieldAt b 14 2 = 65535 then .untagged else .id (BitVec.ofNat 12 (fieldAt b 14 2)))
              else none) ∧
            e.etherType = (if bit 1 2 then some (BitVec.ofNat 16 (fieldAt b 16 2)) else none) ∧
            e.udpPort = (if bit 1 3 then some (BitVec.ofNat 16 (fieldAt b 18 2)) else none) ∧
            [Carrier.none, .l2, .udp4][byte 20]? = some e.carrier ∧
            e.kinds = (if bit 1 4 then some (BitVec.ofNat 5 (byte 21)) else none) ∧
            e.domain = (if bit 1 5 then some (byteAt b 22) else none) ∧
            [Action.forward, .forwardCorrect, .copyCorrect, .takeTiming, .drop][byte 23]? = some e.action ∧
            [TClass.ordinary, .timing][byte 24]? = some e.cls)) ∧
    iff
      (byte 0 ≤ 127 ∧ 2 ≤ byte 1 ∧ byte 1 ≤ 10 ∧ -4 ≤ code ∧ code ≤ 2 ∧ 1 ≤ fieldAt b 7 4 ∧ fieldAt b 11 2 ≤ 4095 ∧
        fieldAt b 15 4 ≤ 10 ^ 9 ∧ 1 ≤ fieldAt b 19 4 ∧ fieldAt b 19 4 ≤ 10 ^ 9 ∧ 1 ≤ fieldAt b 23 4 ∧
        fieldAt b 23 4 ≤ 10 ^ 6)
      (decodeServo b) (fun c =>
        c.domain = byteAt b 0 ∧ c.multiple = byte 1 ∧ c.probeCode = code ∧
          c.probeIp = BitVec.ofNat 32 (fieldAt b 3 4) ∧ c.maxAdjust = min 100000 (fieldAt b 7 4) ∧
          c.kp = fieldAt b 11 2 ∧ c.ki = fieldAt b 13 2 ∧ c.stepThreshold = fieldAt b 15 4 ∧
          c.outlierGate = fieldAt b 19 4 ∧ c.lockWindow = fieldAt b 23 4 ∧ c.holdoverLimit = fieldAt b 27 2) ∧
    (∀ r, decodeCad b = some r →
      [CadMode.off, .continuous, .oneShot][byte 0]? = some r.mode ∧ [Shape.pulse, .square][byte 1]? = some r.shape ∧
        [Policy.always, .whenTraced][byte 2]? = some r.policy) ∧
    iff
      (byte 0 ≤ 7 ∧ (byte 0 = 2 → byte 1 < 8) ∧ (byte 0 = 3 ∨ byte 0 = 4 → byte 1 < 2) ∧ byte 2 ≤ 1) (decodeRoute b)
      (fun r =>
        [Polarity.normal, .inverted][byte 2]? = some r.polarity ∧
          ((byte 0 = 0 → r.source = .low) ∧ (byte 0 = 1 → r.source = .high)) ∧
          (byte 0 = 2 → ∃ n : Fin 8, n.val = byte 1 ∧ r.source = .cadence n) ∧
          (byte 0 = 3 → ∃ m : Fin 2, m.val = byte 1 ∧ r.source = .labelData m) ∧
          (byte 0 = 4 → ∃ m : Fin 2, m.val = byte 1 ∧ r.source = .labelClock m) ∧
          (byte 0 = 5 → r.source = .locked) ∧ (byte 0 = 6 → r.source = .traced) ∧
          (byte 0 = 7 → r.source = .backup)) ∧
    (∀ c, decodeLabel b = some c → [ClockEdge.rising, .falling][byte 6]? = some c.edge) ∧
    iff (byte 0 ≤ 3 ∧ byte 2 ≤ 1 ∧ (byte 3 < 8 ∨ byte 3 = 255)) (decodeCapture b) (fun r =>
      [EdgeSel.none, .rising, .falling, .both][byte 0]? = some r.sel ∧ r.qual = byte 1 ∧
        [RingMode.continuous, .oneShot][byte 2]? = some r.mode ∧
        (byte 3 = 255 → r.bound = none) ∧ (byte 3 < 8 → ∃ n : Fin 8, n.val = byte 3 ∧ r.bound = some n) ∧
        r.window.toNat = byte 4 % 16) ∧
    iff (byte 7 ≤ 1) (decodeNotify b) fun c =>
      c.dest = (if byte 0 = 0 then none else some (BitVec.ofNat 48 (fieldAt b 1 6))) ∧
        [Port.n, .d][byte 7]? = some c.egress ∧ c.holdoff = fieldAt b 8 2 ∧ c.enable = byteAt b 10

/-- R202, R34, R6, R142, R161, R175, R191, R207, R196 with the encodings of R209: what each writable table reads back
is, read as a written entry, the record it holds; a LINES entry of the active bank gives its pin's level. -/
def Obligations.WrittenRecordsReadBack : Prop :=
  (∀ (s : State) (i : Fin 32), s.classifyOk → decodeClass (readEntry .classify i s) = some s.classify[i]) ∧
    (∀ s : State, s.portsOk →
      writePort 0 (readEntry .port 0 s) s = .applied false s ∧
        writePort 1 (readEntry .port 1 s) s = .applied false s) ∧
    (∀ s : State, s.servoCfg.legal → decodeServo (readEntry .servo 0 s) = some s.servoCfg) ∧
    (∀ (s : State) (k : Fin 4) (n : Fin 8), s.recordsOk →
      decodeCad (readEntry (.cadence k) n s) = some s.banks[k].cad[n]) ∧
    (∀ (s : State) (k : Fin 4) (n : Fin 12),
      decodeRoute (readEntry (.lines k) n s) = some s.banks[k].lines[n] ∧
        (byteAt (readEntry (.lines k) n s) 3 = 1#8 ↔ k = s.active ∧ s.pins[n] = true)) ∧
    (∀ (s : State) (k : Fin 4) (m : Fin 2), s.smallRecordsOk →
      decodeLabel (readEntry (.labels k) m s) = some s.banks[k].labels[m]) ∧
    (∀ (s : State) (n : Fin 4), s.smallRecordsOk →
      decodeCapture (readEntry .capture n s) = some s.capRec[n] ∧
        decodeNotify (readEntry .notify n s) = some s.notifyCfg[n] ∧
        bitsAt 48 (readEntry .managers n s) 0 6 = s.managers[n] ∧
        signedOf 16 (fieldAt (readEntry .civil 0 s) 0 2) = s.civil)

/-- R6, R142, R175, R191, R207, R67, R185 with the layouts of R209: the read-only fields that READ_TABLE returns, at
their offsets. PORT: the link state. CADENCE and LABELS: for the active bank the runtime, absent fields zero, and for
another bank a runtime of zeros. CAPTURE: the line state, the stamps held, the in-window flag and the last phase error.
NOTIFY: the pending mask, the state and the reported flag. SOURCES: every field of a record but last heard, and the time
since it was last heard in µs, truncated and held at 4,294,967,295; an empty slot is zero throughout. And the body of
READ_CAPTURE, with its stamps oldest first. -/
def Obligations.RuntimeFieldsReadAtTheirOffsets : Prop :=
  ∀ s : State,
    let zeros (b : List Byte) (off len : Nat) : Prop := slice b off len = List.replicate len 0
    let timeAt (b : List Byte) (off e : Nat) : Prop :=
      e < 2 ^ 48 * 10 ^ 9 → fieldAt b off 6 = e / 10 ^ 9 ∧ fieldAt b (off + 6) 4 = e % 10 ^ 9
    let phaseAt (b : List Byte) (off : Nat) (x : CapLine) : Prop :=
      (x.phase = none → zeros b off 8) ∧
        ∀ e, x.phase = some e → -(2 ^ 63) ≤ e → e < 2 ^ 63 → signedOf 64 (fieldAt b off 8) = e
    (∀ p : Port,
      let b :=
        readEntry .port
          (match p with
            | .n => 0
            | .d => 1) s
      b.length = 13 ∧ (byteAt b 12 = 1#8 ↔ (s.port p).link = .up) ∧
        (s.portsOk →
          fieldAt b 0 4 = (s.port p).ingressLat ∧ fieldAt b 4 4 = (s.port p).egressLat ∧
            signedOf 32 (fieldAt b 8 4) = (s.port p).asym)) ∧
    (∀ (k : Fin 4) (n : Fin 8),
      let b := readEntry (.cadence k) n s
      let x := s.cad[n]
      b.length = 62 ∧ (k ≠ s.active → zeros b 19 43) ∧
        (k = s.active →
          ((byteAt b 19).toNat =
              match x.st with
              | .off => 0
              | .waiting => 1
              | .running _ _ => 2
              | .idle => 3
              | .armed _ _ => 4
              | .done => 5) ∧
            (byteAt b 20 = 1#8 ↔ x.pulse ≠ none) ∧
            ((byteAt b 21).getLsbD 0 = true ↔ ∃ i e, x.st = .running i e ∨ x.st = .armed i e) ∧
            ((byteAt b 21).getLsbD 1 = true ↔ x.last ≠ none) ∧
            ((∀ i e, x.st ≠ .running i e ∧ x.st ≠ .armed i e) → zeros b 22 20) ∧
            (∀ i e, x.st = .running i e ∨ x.st = .armed i e → (i < 2 ^ 80 → fieldAt b 22 10 = i) ∧ timeAt b 32 e) ∧
            (x.last = none → zeros b 42 20) ∧
            ∀ i e, x.last = some (i, e) → (i < 2 ^ 80 → fieldAt b 42 10 = i) ∧ timeAt b 52 e)) ∧
    (∀ (k : Fin 4) (m : Fin 2),
      let b := readEntry (.labels k) m s
      let c := s.banks[k].labels[m]
      let ends := c.delay + 96 * c.period
      b.length = 15 ∧ (k ≠ s.active → zeros b 7 8) ∧
        (k = s.active →
          (byteAt b 8 = 1#8 ↔ s.ser[m].stepSeen = true) ∧
            ((∀ w, s.ser[m].word = some w → ends ≤ w.count) → byteAt b 7 = 0#8 ∧ zeros b 9 6) ∧
            ∀ w, s.ser[m].word = some w → w.count < ends →
              byteAt b 7 = 1#8 ∧ fieldAt b 10 5 = w.index % 2 ^ 40 ∧ (w.count < c.delay → byteAt b 9 = 255#8) ∧
                ∀ i j : Nat, i < 96 → j < c.period → w.count = c.delay + i * c.period + j →
                  (byteAt b 9).toNat = i)) ∧
    (∀ n : Fin 4,
      let x := s.cap[n]
      let b := readEntry .capture n s
      let d := captureBody x
      b.length = 16 ∧ (byteAt b 5 = 1#8 ↔ x.st = .full) ∧ (byteAt b 6).toNat = x.ring.length % 256 ∧
        (byteAt b 7).getLsbD 0 = x.inWindow ∧ ((byteAt b 7).getLsbD 1 = true ↔ x.phase ≠ none) ∧ phaseAt b 8 x ∧
        d.length = 12 + 11 * x.ring.length ∧ (byteAt d 0 = 1#8 ↔ x.st = .full) ∧
        (byteAt d 1).toNat = x.ring.length % 256 ∧ (byteAt d 2 = 1#8 ↔ x.inWindow = true) ∧
        (byteAt d 3 = 1#8 ↔ x.phase ≠ none) ∧ phaseAt d 4 x ∧
        ∀ (i : Nat) (y : CapStamp), x.ring[i]? = some y →
          let at_ := 12 + 11 * i
          (y.sec < 2 ^ 48 → fieldAt d at_ 6 = y.sec) ∧ (y.ns < 10 ^ 9 → fieldAt d (at_ + 6) 4 = y.ns) ∧
            (byteAt d (at_ + 10)).getLsbD 0 = y.falling ∧ (byteAt d (at_ + 10)).getLsbD 1 = y.beforeStep) ∧
    (∀ g : Fin 4,
      let b := readEntry .notify g s
      b.length = 14 ∧ byteAt b 11 = s.groups[g].pending ∧ (byteAt b 12 = 1#8 ↔ s.groups[g].st ≠ .idle) ∧
        (byteAt b 13 = 1#8 ↔ s.groups[g].reported = true)) ∧
    ∀ i : Fin 8,
      let b := readEntry .sources i s
      (s.sources[i] = none → b = List.replicate 41 0) ∧
        ∀ r, s.sources[i] = some r →
          b.length = 41 ∧ byteAt b 0 = 1#8 ∧ (byteAt b 1 = 1#8 ↔ r.st = .eligible) ∧
            (byteAt b 2 = 1#8 ↔ r.selected = true) ∧ (byteAt b 3 = 1#8 ↔ r.civilValid = true) ∧
            fieldAt b 4 8 = r.sender.toNat ∧ fieldAt b 12 2 = r.portNo.toNat ∧ fieldAt b 14 8 = r.tsIdent.toNat ∧
            byteAt b 22 = r.pref1 ∧ byteAt b 23 = r.cls ∧ byteAt b 24 = r.accuracy ∧
            fieldAt b 25 2 = r.variance.toNat ∧ byteAt b 27 = r.pref2 ∧ fieldAt b 28 2 = r.hops.toNat ∧
            (-32768 ≤ r.civil → r.civil ≤ 32767 → signedOf 16 (fieldAt b 30 2) = r.civil) ∧
            (-128 ≤ r.interval → r.interval ≤ 127 → signedOf 8 (byteAt b 32).toNat = r.interval) ∧
            fieldAt b 33 2 = r.lastSeq.toNat ∧ (r.count < 65536 → fieldAt b 35 2 = r.count) ∧
            fieldAt b 37 4 = min 4294967295 ((s.elapsed - r.lastHeard).toNat / 256000)

/-- R117, R198 and the reset rules of the blocks (R17, R50, R70, R91, R118, R162, R192, R208). COLD_RESET: every
counter, the servo and the tables at the values their rules give. RESTART: its response is queued and the warm reset
waits for it, or is due at once when the response is discarded. WARM_RESET, when due: queues, residence table, sources,
exchange unit, pending switch, capture rings, requests and groups emptied, the servo FREE with a and the traced flag
kept; all else continues. Departures that wait for their egress stamp are handed over before the reset but for those
corrected by that stamp, which wait on: a frame handed over that is still being sent leaves with the bytes the corrector
answers, a Follow with the residence of the record it finds. What a warm reset keeps where its rules are silent is the
model's (assumption 17), and so is that the outputs of a tick settle when the reset takes its last event away
(settleTick, assumption 6). -/
def Obligations.ResetsAndRestart : Prop :=
  (∀ s : State,
    ∃ t : State, exec .coldReset s = .next t ∧ t.station = s.station ∧ t.time = { sec := 0, ns := 0, frac := 0 } ∧
      t.elapsed = 0 ∧ t.elapsedRem = 0 ∧ t.steps = [] ∧ t.clock = .normal ∧ t.servo.st = .free ∧ t.servo.a = 0 ∧
      t.servo.integ = 0 ∧ t.servo.locked = false ∧ t.servo.traced = false ∧ t.servoCfg = ServoCfg.reset ∧
      t.sources = Vector.replicate 8 none ∧ t.residence = [] ∧ t.copies = [] ∧ t.exch = Exchange.reset ∧
      t.switch = none ∧ t.active = 0 ∧ t.departing = [] ∧ t.requests = [] ∧ t.restart = .idle ∧
      t.civil = 0 ∧ t.notifySeq = 0 ∧ t.view = none ∧
      (∀ p : Port,
        (t.port p).link = .down ∧ (t.port p).timingQ = [] ∧ (t.port p).ordinaryQ = [] ∧ (t.port p).tx = none ∧
          (t.port p).receiving = none ∧ (t.port p).unstamped = [] ∧
          (t.port p).ingressLat = 0 ∧ (t.port p).egressLat = 0 ∧ (t.port p).asym = 0) ∧
      (∀ i : Fin 32, t.classify[i] = ClassEntry.empty) ∧
      (∀ k : Fin 4,
        (∀ n : Fin 8,
          t.banks[k].cad[n] =
            { mode := .off, num := 1, den := 1, phase := 0, shape := .pulse, width := 8, policy := .always }) ∧
          (∀ i : Fin 12, t.banks[k].lines[i] = { source := .low, polarity := .normal }) ∧
          ∀ m : Fin 2,
            t.banks[k].labels[m] = { enable := false, cadence := 0, delay := 0, period := 2, edge := .rising }) ∧
      (∀ n : Fin 8, t.cad[n] = { st := .off, pulse := none, last := none, endedNow := false }) ∧
      (∀ m : Fin 2, t.ser[m].word = none ∧ t.ser[m].stepSeen = false) ∧ (∀ i : Fin 12, t.pins[i] = false) ∧
      (∀ n : Fin 4,
        t.capRec[n] = { sel := .none, qual := 0, mode := .continuous, bound := none, window := 0 } ∧
          t.cap[n].ring = [] ∧ t.cap[n].st = .run ∧ t.cap[n].phase = none ∧ t.cap[n].inWindow = true) ∧
      ∀ g : Fin 4,
        t.managers[g] = 0 ∧ t.notifyCfg[g] = { dest := none, egress := .n, holdoff := 0, enable := 0 } ∧
          t.groups[g] = { pending := 0, st := .idle, reported := false }) ∧
    (∀ (s : State) (r : Request) (rest : List Request), s.carriesOut .restart r rest →
      let s1 : State := { s with requests := rest }
      let x := s.port r.port
      let out : EgressEntry := { bytes := responseFrame s1 r .ok [], origin := .response true }
      (x.link = .up → x.ordinaryQ.length < 32 →
        exec .restart s =
          .next
            (State.setPort { s1 with restart := .waiting } r.port { x with ordinaryQ := x.ordinaryQ ++ [out] })) ∧
        (x.link = .down → exec .restart s = .next { s1 with restart := .due }) ∧
        (x.link = .up → 32 ≤ x.ordinaryQ.length →
          exec .restart s = .next (raise (.queueDrop r.port) { s1 with restart := .due }))) ∧
    ∀ s : State,
      (s.restart ≠ .due → exec .warmReset s = .next s) ∧
        (s.restart = .due →
          ∃ t : State, exec .warmReset s = .next (settleTick t) ∧
            (∀ p : Port,
              t.port p = { s.port p with timingQ := [], ordinaryQ := [], tx := (t.port p).tx } ∧
                ((∀ d ∈ s.departing,
                    d.port ≠ p ∨ d.sending = false ∨ d.entry.isMarked = false ∨ d.needsOwnStamp = true) →
                  (t.port p).tx = (s.port p).tx) ∧
                (t.port p).tx = ((handOverThose (fun d => !d.needsOwnStamp) s).port p).tx) ∧
            (∀ (d : Departure) (ing : Stamp) (mark : CorrMark), s.departing = [d] → d.needsOwnStamp = false →
              d.sending = true → d.entry.origin = .forwarded ing (some mark) →
              let bytes := d.entry.bytes
              let h := readHdr bytes mark.hdrPos
              let names (y : ResRec) : Prop :=
                y.sender = h.sender ∧ y.portNo = h.portNo ∧ y.seq = h.seq ∧ y.domain = h.domain ∧ y.dir = d.port
              let sends (out : List Byte) : Prop :=
                (t.port d.port).tx = (s.port d.port).tx.map fun f => { f with wire := some (out ++ fcsOf out) }
              (h.len < 38 ∨ h.kind ≠ 3 ∨ (∀ y ∈ s.residence, ¬ names y) → sends bytes) ∧
                ∀ a x b, s.residence = a ++ x :: b → names x → (∀ y ∈ a, ¬ names y) → 38 ≤ h.len → h.kind = 3 →
                  sends (correctFrame bytes mark x.residence)) ∧
            t =
              { s with
                portN := t.portN
                portD := t.portD
                departing := s.departing.filter Departure.needsOwnStamp
                residence := []
                sources := Vector.replicate 8 none
                exch := Exchange.reset
                servo := { Servo.reset with a := s.servo.a, traced := s.servo.traced }
                switch := none
                cap := t.cap
                requests := []
                restart := .idle
                groups := Vector.replicate 4 { pending := 0, st := .idle, reported := false }
                notifySeq := 0 } ∧
            ∀ n : Fin 4,
              t.cap[n] =
                { s.cap[n] with
                  qual := if s.capRec[n].sel = .none then .idle else .seeding
                  ring := []
                  st := .run
                  phase := none
                  inWindow := true })

end
end

