-- ==== Sys2Proof/Laws/Bytes.lean ====
section
/-!
SUPPORT. Laws/Bytes.lean: lengths and values of the byte-order helpers of Machine/Bytes.lean.
-/

namespace Sys2Proof.Machine

@[simp] theorem beBytes_length (n v : Nat) : (beBytes n v).length = n := by
  induction n with
  | zero => rfl
  | succ n ih => simp [beBytes, ih]

theorem beNat_append_acc (bs : List Byte) (a : Nat) :
    bs.foldl (fun acc b => acc * 256 + b.toNat) a = a * 256 ^ bs.length + beNat bs := by
  induction bs generalizing a with
  | nil => simp [beNat]
  | cons b bs ih =>
    simp only [List.foldl_cons, List.length_cons, beNat, ih (a * 256 + b.toNat), ih (0 * 256 + b.toNat)]
    ring

theorem beNat_cons (b : Byte) (bs : List Byte) : beNat (b :: bs) = b.toNat * 256 ^ bs.length + beNat bs := by
  have := beNat_append_acc bs (0 * 256 + b.toNat)
  simpa [beNat] using this

theorem beNat_append (xs ys : List Byte) : beNat (xs ++ ys) = beNat xs * 256 ^ ys.length + beNat ys := by
  simp only [beNat, List.foldl_append]
  exact beNat_append_acc ys _

/-- What `beBytes` writes, `beNat` reads, modulo the width. -/
theorem beNat_beBytes (n v : Nat) : beNat (beBytes n v) = v % 256 ^ n := by
  induction n with
  | zero => simp [beBytes, beNat, Nat.mod_one]
  | succ n ih =>
    have e : v % 256 ^ (n + 1) = v % 256 ^ n + 256 ^ n * (v / 256 ^ n % 256) := by rw [pow_succ, Nat.mod_mul]
    rw [beBytes, beNat_cons, ih, beBytes_length, BitVec.toNat_ofNat, e, Nat.mul_comm, Nat.add_comm]

theorem beNat_beBytes_of_lt {n v : Nat} (h : v < 256 ^ n) : beNat (beBytes n v) = v := by
  rw [beNat_beBytes, Nat.mod_eq_of_lt h]

theorem beNat_lt (bs : List Byte) : beNat bs < 256 ^ bs.length := by
  induction bs with
  | nil => simp [beNat]
  | cons b bs ih =>
    rw [beNat_cons, List.length_cons, pow_succ]
    have := b.isLt
    nlinarith [Nat.pow_pos (n := bs.length) (show 0 < 256 by norm_num)]

/-- A field of `n` bytes that stands behind `pre` bytes reads as it was written. -/
theorem fieldAt_append (pre rest : List Byte) (n v : Nat) (h : v < 256 ^ n) :
    fieldAt (pre ++ (beBytes n v ++ rest)) pre.length n = v := by
  simp [fieldAt, slice, beNat_beBytes_of_lt h]

/-- A byte that stands behind `pre` bytes. -/
theorem byteAt_append (pre rest : List Byte) (b : Byte) : byteAt (pre ++ b :: rest) pre.length = b := by
  simp [byteAt]

/-- A signed number that fits in `w` bits is read as it was written. -/
theorem signedOf_unsignedOf {w : Nat} {z : Int} (hw : 1 ≤ w) (h1 : -2 ^ (w - 1) ≤ z) (h2 : z < 2 ^ (w - 1)) :
    signedOf w (unsignedOf w z) = z := by
  obtain ⟨k, rfl⟩ : ∃ k, w = k + 1 := ⟨w - 1, by omega⟩
  simp only [Nat.add_sub_cancel] at h1 h2
  have hp : (2 : Int) ^ (k + 1) = 2 * 2 ^ k := by ring
  have hpos : (0 : Int) < 2 ^ k := by positivity
  unfold signedOf unsignedOf
  simp only [Nat.add_sub_cancel]
  push_cast
  rcases Int.lt_or_le z 0 with hz | hz
  · have e : z % 2 ^ (k + 1) = z + 2 ^ (k + 1) := by
      rw [← Int.add_emod_right, Int.emod_eq_of_lt (by linarith) (by linarith)]
    rw [e]
    have hn : ¬ (z + 2 ^ (k + 1)).toNat < 2 ^ k := by
      have : ((2 ^ k : Nat) : Int) = 2 ^ k := by push_cast; rfl
      omega
    rw [if_neg hn, Int.toNat_of_nonneg (by linarith)]
    ring
  · have e : z % 2 ^ (k + 1) = z := Int.emod_eq_of_lt hz (by linarith)
    rw [e]
    have hn : z.toNat < 2 ^ k := by
      have : ((2 ^ k : Nat) : Int) = 2 ^ k := by push_cast; rfl
      omega
    rw [if_pos hn, Int.toNat_of_nonneg hz]

theorem unsignedOf_lt (w : Nat) (z : Int) : unsignedOf w z < 2 ^ w := by
  have hpos : (0 : Int) < ((2 ^ w : Nat) : Int) := by positivity
  have h1 := Int.emod_nonneg z (ne_of_gt hpos)
  have h2 := Int.emod_lt_of_pos z hpos
  unfold unsignedOf
  omega

end Sys2Proof.Machine
end

