-- ==== Sys2Proof/Laws/State.lean ====
section
/-!
SUPPORT. Laws/State.lean: one lemma per field per update of the state, true by definition, so that no proof unfolds a
record update.
-/

namespace Sys2Proof.Machine

/-! ### setCad -/

@[simp] theorem State.setCad_pending (s : State) (n : Fin 8) (x : CadRun) : (s.setCad n x).pending = s.pending := rfl
@[simp] theorem State.setCad_station (s : State) (n : Fin 8) (x : CadRun) : (s.setCad n x).station = s.station := rfl
@[simp] theorem State.setCad_portN (s : State) (n : Fin 8) (x : CadRun) : (s.setCad n x).portN = s.portN := rfl
@[simp] theorem State.setCad_portD (s : State) (n : Fin 8) (x : CadRun) : (s.setCad n x).portD = s.portD := rfl
@[simp] theorem State.setCad_classify (s : State) (n : Fin 8) (x : CadRun) : (s.setCad n x).classify = s.classify := rfl
@[simp] theorem State.setCad_residence (s : State) (n : Fin 8) (x : CadRun) : (s.setCad n x).residence = s.residence := rfl
@[simp] theorem State.setCad_copies (s : State) (n : Fin 8) (x : CadRun) : (s.setCad n x).copies = s.copies := rfl
@[simp] theorem State.setCad_sources (s : State) (n : Fin 8) (x : CadRun) : (s.setCad n x).sources = s.sources := rfl
@[simp] theorem State.setCad_exch (s : State) (n : Fin 8) (x : CadRun) : (s.setCad n x).exch = s.exch := rfl
@[simp] theorem State.setCad_time (s : State) (n : Fin 8) (x : CadRun) : (s.setCad n x).time = s.time := rfl
@[simp] theorem State.setCad_elapsed (s : State) (n : Fin 8) (x : CadRun) : (s.setCad n x).elapsed = s.elapsed := rfl
@[simp] theorem State.setCad_elapsedRem (s : State) (n : Fin 8) (x : CadRun) : (s.setCad n x).elapsedRem = s.elapsedRem := rfl
@[simp] theorem State.setCad_prevTime (s : State) (n : Fin 8) (x : CadRun) : (s.setCad n x).prevTime = s.prevTime := rfl
@[simp] theorem State.setCad_prevTime2 (s : State) (n : Fin 8) (x : CadRun) : (s.setCad n x).prevTime2 = s.prevTime2 := rfl
@[simp] theorem State.setCad_steps (s : State) (n : Fin 8) (x : CadRun) : (s.setCad n x).steps = s.steps := rfl
@[simp] theorem State.setCad_servoCfg (s : State) (n : Fin 8) (x : CadRun) : (s.setCad n x).servoCfg = s.servoCfg := rfl
@[simp] theorem State.setCad_servo (s : State) (n : Fin 8) (x : CadRun) : (s.setCad n x).servo = s.servo := rfl
@[simp] theorem State.setCad_clock (s : State) (n : Fin 8) (x : CadRun) : (s.setCad n x).clock = s.clock := rfl
@[simp] theorem State.setCad_banks (s : State) (n : Fin 8) (x : CadRun) : (s.setCad n x).banks = s.banks := rfl
@[simp] theorem State.setCad_active (s : State) (n : Fin 8) (x : CadRun) : (s.setCad n x).active = s.active := rfl
@[simp] theorem State.setCad_switch (s : State) (n : Fin 8) (x : CadRun) : (s.setCad n x).switch = s.switch := rfl
@[simp] theorem State.setCad_ser (s : State) (n : Fin 8) (x : CadRun) : (s.setCad n x).ser = s.ser := rfl
@[simp] theorem State.setCad_pins (s : State) (n : Fin 8) (x : CadRun) : (s.setCad n x).pins = s.pins := rfl
@[simp] theorem State.setCad_view (s : State) (n : Fin 8) (x : CadRun) : (s.setCad n x).view = s.view := rfl
@[simp] theorem State.setCad_departing (s : State) (n : Fin 8) (x : CadRun) : (s.setCad n x).departing = s.departing := rfl
@[simp] theorem State.setCad_capRec (s : State) (n : Fin 8) (x : CadRun) : (s.setCad n x).capRec = s.capRec := rfl
@[simp] theorem State.setCad_cap (s : State) (n : Fin 8) (x : CadRun) : (s.setCad n x).cap = s.cap := rfl
@[simp] theorem State.setCad_requests (s : State) (n : Fin 8) (x : CadRun) : (s.setCad n x).requests = s.requests := rfl
@[simp] theorem State.setCad_managers (s : State) (n : Fin 8) (x : CadRun) : (s.setCad n x).managers = s.managers := rfl
@[simp] theorem State.setCad_civil (s : State) (n : Fin 8) (x : CadRun) : (s.setCad n x).civil = s.civil := rfl
@[simp] theorem State.setCad_restart (s : State) (n : Fin 8) (x : CadRun) : (s.setCad n x).restart = s.restart := rfl
@[simp] theorem State.setCad_notifyCfg (s : State) (n : Fin 8) (x : CadRun) : (s.setCad n x).notifyCfg = s.notifyCfg := rfl
@[simp] theorem State.setCad_groups (s : State) (n : Fin 8) (x : CadRun) : (s.setCad n x).groups = s.groups := rfl
@[simp] theorem State.setCad_notifySeq (s : State) (n : Fin 8) (x : CadRun) : (s.setCad n x).notifySeq = s.notifySeq := rfl

/-! ### setSer -/

@[simp] theorem State.setSer_pending (s : State) (m : Fin 2) (x : Serializer) : (s.setSer m x).pending = s.pending := rfl
@[simp] theorem State.setSer_station (s : State) (m : Fin 2) (x : Serializer) : (s.setSer m x).station = s.station := rfl
@[simp] theorem State.setSer_portN (s : State) (m : Fin 2) (x : Serializer) : (s.setSer m x).portN = s.portN := rfl
@[simp] theorem State.setSer_portD (s : State) (m : Fin 2) (x : Serializer) : (s.setSer m x).portD = s.portD := rfl
@[simp] theorem State.setSer_classify (s : State) (m : Fin 2) (x : Serializer) : (s.setSer m x).classify = s.classify := rfl
@[simp] theorem State.setSer_residence (s : State) (m : Fin 2) (x : Serializer) : (s.setSer m x).residence = s.residence := rfl
@[simp] theorem State.setSer_copies (s : State) (m : Fin 2) (x : Serializer) : (s.setSer m x).copies = s.copies := rfl
@[simp] theorem State.setSer_sources (s : State) (m : Fin 2) (x : Serializer) : (s.setSer m x).sources = s.sources := rfl
@[simp] theorem State.setSer_exch (s : State) (m : Fin 2) (x : Serializer) : (s.setSer m x).exch = s.exch := rfl
@[simp] theorem State.setSer_time (s : State) (m : Fin 2) (x : Serializer) : (s.setSer m x).time = s.time := rfl
@[simp] theorem State.setSer_elapsed (s : State) (m : Fin 2) (x : Serializer) : (s.setSer m x).elapsed = s.elapsed := rfl
@[simp] theorem State.setSer_elapsedRem (s : State) (m : Fin 2) (x : Serializer) : (s.setSer m x).elapsedRem = s.elapsedRem := rfl
@[simp] theorem State.setSer_prevTime (s : State) (m : Fin 2) (x : Serializer) : (s.setSer m x).prevTime = s.prevTime := rfl
@[simp] theorem State.setSer_prevTime2 (s : State) (m : Fin 2) (x : Serializer) : (s.setSer m x).prevTime2 = s.prevTime2 := rfl
@[simp] theorem State.setSer_steps (s : State) (m : Fin 2) (x : Serializer) : (s.setSer m x).steps = s.steps := rfl
@[simp] theorem State.setSer_servoCfg (s : State) (m : Fin 2) (x : Serializer) : (s.setSer m x).servoCfg = s.servoCfg := rfl
@[simp] theorem State.setSer_servo (s : State) (m : Fin 2) (x : Serializer) : (s.setSer m x).servo = s.servo := rfl
@[simp] theorem State.setSer_clock (s : State) (m : Fin 2) (x : Serializer) : (s.setSer m x).clock = s.clock := rfl
@[simp] theorem State.setSer_banks (s : State) (m : Fin 2) (x : Serializer) : (s.setSer m x).banks = s.banks := rfl
@[simp] theorem State.setSer_active (s : State) (m : Fin 2) (x : Serializer) : (s.setSer m x).active = s.active := rfl
@[simp] theorem State.setSer_switch (s : State) (m : Fin 2) (x : Serializer) : (s.setSer m x).switch = s.switch := rfl
@[simp] theorem State.setSer_cad (s : State) (m : Fin 2) (x : Serializer) : (s.setSer m x).cad = s.cad := rfl
@[simp] theorem State.setSer_pins (s : State) (m : Fin 2) (x : Serializer) : (s.setSer m x).pins = s.pins := rfl
@[simp] theorem State.setSer_view (s : State) (m : Fin 2) (x : Serializer) : (s.setSer m x).view = s.view := rfl
@[simp] theorem State.setSer_departing (s : State) (m : Fin 2) (x : Serializer) : (s.setSer m x).departing = s.departing := rfl
@[simp] theorem State.setSer_capRec (s : State) (m : Fin 2) (x : Serializer) : (s.setSer m x).capRec = s.capRec := rfl
@[simp] theorem State.setSer_cap (s : State) (m : Fin 2) (x : Serializer) : (s.setSer m x).cap = s.cap := rfl
@[simp] theorem State.setSer_requests (s : State) (m : Fin 2) (x : Serializer) : (s.setSer m x).requests = s.requests := rfl
@[simp] theorem State.setSer_managers (s : State) (m : Fin 2) (x : Serializer) : (s.setSer m x).managers = s.managers := rfl
@[simp] theorem State.setSer_civil (s : State) (m : Fin 2) (x : Serializer) : (s.setSer m x).civil = s.civil := rfl
@[simp] theorem State.setSer_restart (s : State) (m : Fin 2) (x : Serializer) : (s.setSer m x).restart = s.restart := rfl
@[simp] theorem State.setSer_notifyCfg (s : State) (m : Fin 2) (x : Serializer) : (s.setSer m x).notifyCfg = s.notifyCfg := rfl
@[simp] theorem State.setSer_groups (s : State) (m : Fin 2) (x : Serializer) : (s.setSer m x).groups = s.groups := rfl
@[simp] theorem State.setSer_notifySeq (s : State) (m : Fin 2) (x : Serializer) : (s.setSer m x).notifySeq = s.notifySeq := rfl

/-! ### setCap -/

@[simp] theorem State.setCap_pending (s : State) (n : Fin 4) (x : CapLine) : (s.setCap n x).pending = s.pending := rfl
@[simp] theorem State.setCap_station (s : State) (n : Fin 4) (x : CapLine) : (s.setCap n x).station = s.station := rfl
@[simp] theorem State.setCap_portN (s : State) (n : Fin 4) (x : CapLine) : (s.setCap n x).portN = s.portN := rfl
@[simp] theorem State.setCap_portD (s : State) (n : Fin 4) (x : CapLine) : (s.setCap n x).portD = s.portD := rfl
@[simp] theorem State.setCap_classify (s : State) (n : Fin 4) (x : CapLine) : (s.setCap n x).classify = s.classify := rfl
@[simp] theorem State.setCap_residence (s : State) (n : Fin 4) (x : CapLine) : (s.setCap n x).residence = s.residence := rfl
@[simp] theorem State.setCap_copies (s : State) (n : Fin 4) (x : CapLine) : (s.setCap n x).copies = s.copies := rfl
@[simp] theorem State.setCap_sources (s : State) (n : Fin 4) (x : CapLine) : (s.setCap n x).sources = s.sources := rfl
@[simp] theorem State.setCap_exch (s : State) (n : Fin 4) (x : CapLine) : (s.setCap n x).exch = s.exch := rfl
@[simp] theorem State.setCap_time (s : State) (n : Fin 4) (x : CapLine) : (s.setCap n x).time = s.time := rfl
@[simp] theorem State.setCap_elapsed (s : State) (n : Fin 4) (x : CapLine) : (s.setCap n x).elapsed = s.elapsed := rfl
@[simp] theorem State.setCap_elapsedRem (s : State) (n : Fin 4) (x : CapLine) : (s.setCap n x).elapsedRem = s.elapsedRem := rfl
@[simp] theorem State.setCap_prevTime (s : State) (n : Fin 4) (x : CapLine) : (s.setCap n x).prevTime = s.prevTime := rfl
@[simp] theorem State.setCap_prevTime2 (s : State) (n : Fin 4) (x : CapLine) : (s.setCap n x).prevTime2 = s.prevTime2 := rfl
@[simp] theorem State.setCap_steps (s : State) (n : Fin 4) (x : CapLine) : (s.setCap n x).steps = s.steps := rfl
@[simp] theorem State.setCap_servoCfg (s : State) (n : Fin 4) (x : CapLine) : (s.setCap n x).servoCfg = s.servoCfg := rfl
@[simp] theorem State.setCap_servo (s : State) (n : Fin 4) (x : CapLine) : (s.setCap n x).servo = s.servo := rfl
@[simp] theorem State.setCap_clock (s : State) (n : Fin 4) (x : CapLine) : (s.setCap n x).clock = s.clock := rfl
@[simp] theorem State.setCap_banks (s : State) (n : Fin 4) (x : CapLine) : (s.setCap n x).banks = s.banks := rfl
@[simp] theorem State.setCap_active (s : State) (n : Fin 4) (x : CapLine) : (s.setCap n x).active = s.active := rfl
@[simp] theorem State.setCap_switch (s : State) (n : Fin 4) (x : CapLine) : (s.setCap n x).switch = s.switch := rfl
@[simp] theorem State.setCap_cad (s : State) (n : Fin 4) (x : CapLine) : (s.setCap n x).cad = s.cad := rfl
@[simp] theorem State.setCap_ser (s : State) (n : Fin 4) (x : CapLine) : (s.setCap n x).ser = s.ser := rfl
@[simp] theorem State.setCap_pins (s : State) (n : Fin 4) (x : CapLine) : (s.setCap n x).pins = s.pins := rfl
@[simp] theorem State.setCap_view (s : State) (n : Fin 4) (x : CapLine) : (s.setCap n x).view = s.view := rfl
@[simp] theorem State.setCap_departing (s : State) (n : Fin 4) (x : CapLine) : (s.setCap n x).departing = s.departing := rfl
@[simp] theorem State.setCap_capRec (s : State) (n : Fin 4) (x : CapLine) : (s.setCap n x).capRec = s.capRec := rfl
@[simp] theorem State.setCap_requests (s : State) (n : Fin 4) (x : CapLine) : (s.setCap n x).requests = s.requests := rfl
@[simp] theorem State.setCap_managers (s : State) (n : Fin 4) (x : CapLine) : (s.setCap n x).managers = s.managers := rfl
@[simp] theorem State.setCap_civil (s : State) (n : Fin 4) (x : CapLine) : (s.setCap n x).civil = s.civil := rfl
@[simp] theorem State.setCap_restart (s : State) (n : Fin 4) (x : CapLine) : (s.setCap n x).restart = s.restart := rfl
@[simp] theorem State.setCap_notifyCfg (s : State) (n : Fin 4) (x : CapLine) : (s.setCap n x).notifyCfg = s.notifyCfg := rfl
@[simp] theorem State.setCap_groups (s : State) (n : Fin 4) (x : CapLine) : (s.setCap n x).groups = s.groups := rfl
@[simp] theorem State.setCap_notifySeq (s : State) (n : Fin 4) (x : CapLine) : (s.setCap n x).notifySeq = s.notifySeq := rfl

/-! ### setGroup -/

@[simp] theorem State.setGroup_pending (s : State) (g : Fin 4) (x : Group) : (s.setGroup g x).pending = s.pending := rfl
@[simp] theorem State.setGroup_station (s : State) (g : Fin 4) (x : Group) : (s.setGroup g x).station = s.station := rfl
@[simp] theorem State.setGroup_portN (s : State) (g : Fin 4) (x : Group) : (s.setGroup g x).portN = s.portN := rfl
@[simp] theorem State.setGroup_portD (s : State) (g : Fin 4) (x : Group) : (s.setGroup g x).portD = s.portD := rfl
@[simp] theorem State.setGroup_classify (s : State) (g : Fin 4) (x : Group) : (s.setGroup g x).classify = s.classify := rfl
@[simp] theorem State.setGroup_residence (s : State) (g : Fin 4) (x : Group) : (s.setGroup g x).residence = s.residence := rfl
@[simp] theorem State.setGroup_copies (s : State) (g : Fin 4) (x : Group) : (s.setGroup g x).copies = s.copies := rfl
@[simp] theorem State.setGroup_sources (s : State) (g : Fin 4) (x : Group) : (s.setGroup g x).sources = s.sources := rfl
@[simp] theorem State.setGroup_exch (s : State) (g : Fin 4) (x : Group) : (s.setGroup g x).exch = s.exch := rfl
@[simp] theorem State.setGroup_time (s : State) (g : Fin 4) (x : Group) : (s.setGroup g x).time = s.time := rfl
@[simp] theorem State.setGroup_elapsed (s : State) (g : Fin 4) (x : Group) : (s.setGroup g x).elapsed = s.elapsed := rfl
@[simp] theorem State.setGroup_elapsedRem (s : State) (g : Fin 4) (x : Group) : (s.setGroup g x).elapsedRem = s.elapsedRem := rfl
@[simp] theorem State.setGroup_prevTime (s : State) (g : Fin 4) (x : Group) : (s.setGroup g x).prevTime = s.prevTime := rfl
@[simp] theorem State.setGroup_prevTime2 (s : State) (g : Fin 4) (x : Group) : (s.setGroup g x).prevTime2 = s.prevTime2 := rfl
@[simp] theorem State.setGroup_steps (s : State) (g : Fin 4) (x : Group) : (s.setGroup g x).steps = s.steps := rfl
@[simp] theorem State.setGroup_servoCfg (s : State) (g : Fin 4) (x : Group) : (s.setGroup g x).servoCfg = s.servoCfg := rfl
@[simp] theorem State.setGroup_servo (s : State) (g : Fin 4) (x : Group) : (s.setGroup g x).servo = s.servo := rfl
@[simp] theorem State.setGroup_clock (s : State) (g : Fin 4) (x : Group) : (s.setGroup g x).clock = s.clock := rfl
@[simp] theorem State.setGroup_banks (s : State) (g : Fin 4) (x : Group) : (s.setGroup g x).banks = s.banks := rfl
@[simp] theorem State.setGroup_active (s : State) (g : Fin 4) (x : Group) : (s.setGroup g x).active = s.active := rfl
@[simp] theorem State.setGroup_switch (s : State) (g : Fin 4) (x : Group) : (s.setGroup g x).switch = s.switch := rfl
@[simp] theorem State.setGroup_cad (s : State) (g : Fin 4) (x : Group) : (s.setGroup g x).cad = s.cad := rfl
@[simp] theorem State.setGroup_ser (s : State) (g : Fin 4) (x : Group) : (s.setGroup g x).ser = s.ser := rfl
@[simp] theorem State.setGroup_pins (s : State) (g : Fin 4) (x : Group) : (s.setGroup g x).pins = s.pins := rfl
@[simp] theorem State.setGroup_view (s : State) (g : Fin 4) (x : Group) : (s.setGroup g x).view = s.view := rfl
@[simp] theorem State.setGroup_departing (s : State) (g : Fin 4) (x : Group) : (s.setGroup g x).departing = s.departing := rfl
@[simp] theorem State.setGroup_capRec (s : State) (g : Fin 4) (x : Group) : (s.setGroup g x).capRec = s.capRec := rfl
@[simp] theorem State.setGroup_cap (s : State) (g : Fin 4) (x : Group) : (s.setGroup g x).cap = s.cap := rfl
@[simp] theorem State.setGroup_requests (s : State) (g : Fin 4) (x : Group) : (s.setGroup g x).requests = s.requests := rfl
@[simp] theorem State.setGroup_managers (s : State) (g : Fin 4) (x : Group) : (s.setGroup g x).managers = s.managers := rfl
@[simp] theorem State.setGroup_civil (s : State) (g : Fin 4) (x : Group) : (s.setGroup g x).civil = s.civil := rfl
@[simp] theorem State.setGroup_restart (s : State) (g : Fin 4) (x : Group) : (s.setGroup g x).restart = s.restart := rfl
@[simp] theorem State.setGroup_notifyCfg (s : State) (g : Fin 4) (x : Group) : (s.setGroup g x).notifyCfg = s.notifyCfg := rfl
@[simp] theorem State.setGroup_notifySeq (s : State) (g : Fin 4) (x : Group) : (s.setGroup g x).notifySeq = s.notifySeq := rfl

/-! ### setSource -/

@[simp] theorem State.setSource_pending (s : State) (i : Fin 8) (x : Option SourceRec) : (s.setSource i x).pending = s.pending := rfl
@[simp] theorem State.setSource_station (s : State) (i : Fin 8) (x : Option SourceRec) : (s.setSource i x).station = s.station := rfl
@[simp] theorem State.setSource_portN (s : State) (i : Fin 8) (x : Option SourceRec) : (s.setSource i x).portN = s.portN := rfl
@[simp] theorem State.setSource_portD (s : State) (i : Fin 8) (x : Option SourceRec) : (s.setSource i x).portD = s.portD := rfl
@[simp] theorem State.setSource_classify (s : State) (i : Fin 8) (x : Option SourceRec) : (s.setSource i x).classify = s.classify := rfl
@[simp] theorem State.setSource_residence (s : State) (i : Fin 8) (x : Option SourceRec) : (s.setSource i x).residence = s.residence := rfl
@[simp] theorem State.setSource_copies (s : State) (i : Fin 8) (x : Option SourceRec) : (s.setSource i x).copies = s.copies := rfl
@[simp] theorem State.setSource_exch (s : State) (i : Fin 8) (x : Option SourceRec) : (s.setSource i x).exch = s.exch := rfl
@[simp] theorem State.setSource_time (s : State) (i : Fin 8) (x : Option SourceRec) : (s.setSource i x).time = s.time := rfl
@[simp] theorem State.setSource_elapsed (s : State) (i : Fin 8) (x : Option SourceRec) : (s.setSource i x).elapsed = s.elapsed := rfl
@[simp] theorem State.setSource_elapsedRem (s : State) (i : Fin 8) (x : Option SourceRec) : (s.setSource i x).elapsedRem = s.elapsedRem := rfl
@[simp] theorem State.setSource_prevTime (s : State) (i : Fin 8) (x : Option SourceRec) : (s.setSource i x).prevTime = s.prevTime := rfl
@[simp] theorem State.setSource_prevTime2 (s : State) (i : Fin 8) (x : Option SourceRec) : (s.setSource i x).prevTime2 = s.prevTime2 := rfl
@[simp] theorem State.setSource_steps (s : State) (i : Fin 8) (x : Option SourceRec) : (s.setSource i x).steps = s.steps := rfl
@[simp] theorem State.setSource_servoCfg (s : State) (i : Fin 8) (x : Option SourceRec) : (s.setSource i x).servoCfg = s.servoCfg := rfl
@[simp] theorem State.setSource_servo (s : State) (i : Fin 8) (x : Option SourceRec) : (s.setSource i x).servo = s.servo := rfl
@[simp] theorem State.setSource_clock (s : State) (i : Fin 8) (x : Option SourceRec) : (s.setSource i x).clock = s.clock := rfl
@[simp] theorem State.setSource_banks (s : State) (i : Fin 8) (x : Option SourceRec) : (s.setSource i x).banks = s.banks := rfl
@[simp] theorem State.setSource_active (s : State) (i : Fin 8) (x : Option SourceRec) : (s.setSource i x).active = s.active := rfl
@[simp] theorem State.setSource_switch (s : State) (i : Fin 8) (x : Option SourceRec) : (s.setSource i x).switch = s.switch := rfl
@[simp] theorem State.setSource_cad (s : State) (i : Fin 8) (x : Option SourceRec) : (s.setSource i x).cad = s.cad := rfl
@[simp] theorem State.setSource_ser (s : State) (i : Fin 8) (x : Option SourceRec) : (s.setSource i x).ser = s.ser := rfl
@[simp] theorem State.setSource_pins (s : State) (i : Fin 8) (x : Option SourceRec) : (s.setSource i x).pins = s.pins := rfl
@[simp] theorem State.setSource_view (s : State) (i : Fin 8) (x : Option SourceRec) : (s.setSource i x).view = s.view := rfl
@[simp] theorem State.setSource_departing (s : State) (i : Fin 8) (x : Option SourceRec) : (s.setSource i x).departing = s.departing := rfl
@[simp] theorem State.setSource_capRec (s : State) (i : Fin 8) (x : Option SourceRec) : (s.setSource i x).capRec = s.capRec := rfl
@[simp] theorem State.setSource_cap (s : State) (i : Fin 8) (x : Option SourceRec) : (s.setSource i x).cap = s.cap := rfl
@[simp] theorem State.setSource_requests (s : State) (i : Fin 8) (x : Option SourceRec) : (s.setSource i x).requests = s.requests := rfl
@[simp] theorem State.setSource_managers (s : State) (i : Fin 8) (x : Option SourceRec) : (s.setSource i x).managers = s.managers := rfl
@[simp] theorem State.setSource_civil (s : State) (i : Fin 8) (x : Option SourceRec) : (s.setSource i x).civil = s.civil := rfl
@[simp] theorem State.setSource_restart (s : State) (i : Fin 8) (x : Option SourceRec) : (s.setSource i x).restart = s.restart := rfl
@[simp] theorem State.setSource_notifyCfg (s : State) (i : Fin 8) (x : Option SourceRec) : (s.setSource i x).notifyCfg = s.notifyCfg := rfl
@[simp] theorem State.setSource_groups (s : State) (i : Fin 8) (x : Option SourceRec) : (s.setSource i x).groups = s.groups := rfl
@[simp] theorem State.setSource_notifySeq (s : State) (i : Fin 8) (x : Option SourceRec) : (s.setSource i x).notifySeq = s.notifySeq := rfl

/-! ### setCadRec -/

@[simp] theorem State.setCadRec_pending (s : State) (k : Fin 4) (n : Fin 8) (x : CadRec) : (s.setCadRec k n x).pending = s.pending := rfl
@[simp] theorem State.setCadRec_station (s : State) (k : Fin 4) (n : Fin 8) (x : CadRec) : (s.setCadRec k n x).station = s.station := rfl
@[simp] theorem State.setCadRec_portN (s : State) (k : Fin 4) (n : Fin 8) (x : CadRec) : (s.setCadRec k n x).portN = s.portN := rfl
@[simp] theorem State.setCadRec_portD (s : State) (k : Fin 4) (n : Fin 8) (x : CadRec) : (s.setCadRec k n x).portD = s.portD := rfl
@[simp] theorem State.setCadRec_classify (s : State) (k : Fin 4) (n : Fin 8) (x : CadRec) : (s.setCadRec k n x).classify = s.classify := rfl
@[simp] theorem State.setCadRec_residence (s : State) (k : Fin 4) (n : Fin 8) (x : CadRec) : (s.setCadRec k n x).residence = s.residence := rfl
@[simp] theorem State.setCadRec_copies (s : State) (k : Fin 4) (n : Fin 8) (x : CadRec) : (s.setCadRec k n x).copies = s.copies := rfl
@[simp] theorem State.setCadRec_sources (s : State) (k : Fin 4) (n : Fin 8) (x : CadRec) : (s.setCadRec k n x).sources = s.sources := rfl
@[simp] theorem State.setCadRec_exch (s : State) (k : Fin 4) (n : Fin 8) (x : CadRec) : (s.setCadRec k n x).exch = s.exch := rfl
@[simp] theorem State.setCadRec_time (s : State) (k : Fin 4) (n : Fin 8) (x : CadRec) : (s.setCadRec k n x).time = s.time := rfl
@[simp] theorem State.setCadRec_elapsed (s : State) (k : Fin 4) (n : Fin 8) (x : CadRec) : (s.setCadRec k n x).elapsed = s.elapsed := rfl
@[simp] theorem State.setCadRec_elapsedRem (s : State) (k : Fin 4) (n : Fin 8) (x : CadRec) : (s.setCadRec k n x).elapsedRem = s.elapsedRem := rfl
@[simp] theorem State.setCadRec_prevTime (s : State) (k : Fin 4) (n : Fin 8) (x : CadRec) : (s.setCadRec k n x).prevTime = s.prevTime := rfl
@[simp] theorem State.setCadRec_prevTime2 (s : State) (k : Fin 4) (n : Fin 8) (x : CadRec) : (s.setCadRec k n x).prevTime2 = s.prevTime2 := rfl
@[simp] theorem State.setCadRec_steps (s : State) (k : Fin 4) (n : Fin 8) (x : CadRec) : (s.setCadRec k n x).steps = s.steps := rfl
@[simp] theorem State.setCadRec_servoCfg (s : State) (k : Fin 4) (n : Fin 8) (x : CadRec) : (s.setCadRec k n x).servoCfg = s.servoCfg := rfl
@[simp] theorem State.setCadRec_servo (s : State) (k : Fin 4) (n : Fin 8) (x : CadRec) : (s.setCadRec k n x).servo = s.servo := rfl
@[simp] theorem State.setCadRec_clock (s : State) (k : Fin 4) (n : Fin 8) (x : CadRec) : (s.setCadRec k n x).clock = s.clock := rfl
@[simp] theorem State.setCadRec_active (s : State) (k : Fin 4) (n : Fin 8) (x : CadRec) : (s.setCadRec k n x).active = s.active := rfl
@[simp] theorem State.setCadRec_switch (s : State) (k : Fin 4) (n : Fin 8) (x : CadRec) : (s.setCadRec k n x).switch = s.switch := rfl
@[simp] theorem State.setCadRec_cad (s : State) (k : Fin 4) (n : Fin 8) (x : CadRec) : (s.setCadRec k n x).cad = s.cad := rfl
@[simp] theorem State.setCadRec_ser (s : State) (k : Fin 4) (n : Fin 8) (x : CadRec) : (s.setCadRec k n x).ser = s.ser := rfl
@[simp] theorem State.setCadRec_pins (s : State) (k : Fin 4) (n : Fin 8) (x : CadRec) : (s.setCadRec k n x).pins = s.pins := rfl
@[simp] theorem State.setCadRec_view (s : State) (k : Fin 4) (n : Fin 8) (x : CadRec) : (s.setCadRec k n x).view = s.view := rfl
@[simp] theorem State.setCadRec_departing (s : State) (k : Fin 4) (n : Fin 8) (x : CadRec) : (s.setCadRec k n x).departing = s.departing := rfl
@[simp] theorem State.setCadRec_capRec (s : State) (k : Fin 4) (n : Fin 8) (x : CadRec) : (s.setCadRec k n x).capRec = s.capRec := rfl
@[simp] theorem State.setCadRec_cap (s : State) (k : Fin 4) (n : Fin 8) (x : CadRec) : (s.setCadRec k n x).cap = s.cap := rfl
@[simp] theorem State.setCadRec_requests (s : State) (k : Fin 4) (n : Fin 8) (x : CadRec) : (s.setCadRec k n x).requests = s.requests := rfl
@[simp] theorem State.setCadRec_managers (s : State) (k : Fin 4) (n : Fin 8) (x : CadRec) : (s.setCadRec k n x).managers = s.managers := rfl
@[simp] theorem State.setCadRec_civil (s : State) (k : Fin 4) (n : Fin 8) (x : CadRec) : (s.setCadRec k n x).civil = s.civil := rfl
@[simp] theorem State.setCadRec_restart (s : State) (k : Fin 4) (n : Fin 8) (x : CadRec) : (s.setCadRec k n x).restart = s.restart := rfl
@[simp] theorem State.setCadRec_notifyCfg (s : State) (k : Fin 4) (n : Fin 8) (x : CadRec) : (s.setCadRec k n x).notifyCfg = s.notifyCfg := rfl
@[simp] theorem State.setCadRec_groups (s : State) (k : Fin 4) (n : Fin 8) (x : CadRec) : (s.setCadRec k n x).groups = s.groups := rfl
@[simp] theorem State.setCadRec_notifySeq (s : State) (k : Fin 4) (n : Fin 8) (x : CadRec) : (s.setCadRec k n x).notifySeq = s.notifySeq := rfl

/-! ### setRoute -/

@[simp] theorem State.setRoute_pending (s : State) (k : Fin 4) (n : Fin 12) (x : Route) : (s.setRoute k n x).pending = s.pending := rfl
@[simp] theorem State.setRoute_station (s : State) (k : Fin 4) (n : Fin 12) (x : Route) : (s.setRoute k n x).station = s.station := rfl
@[simp] theorem State.setRoute_portN (s : State) (k : Fin 4) (n : Fin 12) (x : Route) : (s.setRoute k n x).portN = s.portN := rfl
@[simp] theorem State.setRoute_portD (s : State) (k : Fin 4) (n : Fin 12) (x : Route) : (s.setRoute k n x).portD = s.portD := rfl
@[simp] theorem State.setRoute_classify (s : State) (k : Fin 4) (n : Fin 12) (x : Route) : (s.setRoute k n x).classify = s.classify := rfl
@[simp] theorem State.setRoute_residence (s : State) (k : Fin 4) (n : Fin 12) (x : Route) : (s.setRoute k n x).residence = s.residence := rfl
@[simp] theorem State.setRoute_copies (s : State) (k : Fin 4) (n : Fin 12) (x : Route) : (s.setRoute k n x).copies = s.copies := rfl
@[simp] theorem State.setRoute_sources (s : State) (k : Fin 4) (n : Fin 12) (x : Route) : (s.setRoute k n x).sources = s.sources := rfl
@[simp] theorem State.setRoute_exch (s : State) (k : Fin 4) (n : Fin 12) (x : Route) : (s.setRoute k n x).exch = s.exch := rfl
@[simp] theorem State.setRoute_time (s : State) (k : Fin 4) (n : Fin 12) (x : Route) : (s.setRoute k n x).time = s.time := rfl
@[simp] theorem State.setRoute_elapsed (s : State) (k : Fin 4) (n : Fin 12) (x : Route) : (s.setRoute k n x).elapsed = s.elapsed := rfl
@[simp] theorem State.setRoute_elapsedRem (s : State) (k : Fin 4) (n : Fin 12) (x : Route) : (s.setRoute k n x).elapsedRem = s.elapsedRem := rfl
@[simp] theorem State.setRoute_prevTime (s : State) (k : Fin 4) (n : Fin 12) (x : Route) : (s.setRoute k n x).prevTime = s.prevTime := rfl
@[simp] theorem State.setRoute_prevTime2 (s : State) (k : Fin 4) (n : Fin 12) (x : Route) : (s.setRoute k n x).prevTime2 = s.prevTime2 := rfl
@[simp] theorem State.setRoute_steps (s : State) (k : Fin 4) (n : Fin 12) (x : Route) : (s.setRoute k n x).steps = s.steps := rfl
@[simp] theorem State.setRoute_servoCfg (s : State) (k : Fin 4) (n : Fin 12) (x : Route) : (s.setRoute k n x).servoCfg = s.servoCfg := rfl
@[simp] theorem State.setRoute_servo (s : State) (k : Fin 4) (n : Fin 12) (x : Route) : (s.setRoute k n x).servo = s.servo := rfl
@[simp] theorem State.setRoute_clock (s : State) (k : Fin 4) (n : Fin 12) (x : Route) : (s.setRoute k n x).clock = s.clock := rfl
@[simp] theorem State.setRoute_active (s : State) (k : Fin 4) (n : Fin 12) (x : Route) : (s.setRoute k n x).active = s.active := rfl
@[simp] theorem State.setRoute_switch (s : State) (k : Fin 4) (n : Fin 12) (x : Route) : (s.setRoute k n x).switch = s.switch := rfl
@[simp] theorem State.setRoute_cad (s : State) (k : Fin 4) (n : Fin 12) (x : Route) : (s.setRoute k n x).cad = s.cad := rfl
@[simp] theorem State.setRoute_ser (s : State) (k : Fin 4) (n : Fin 12) (x : Route) : (s.setRoute k n x).ser = s.ser := rfl
@[simp] theorem State.setRoute_pins (s : State) (k : Fin 4) (n : Fin 12) (x : Route) : (s.setRoute k n x).pins = s.pins := rfl
@[simp] theorem State.setRoute_view (s : State) (k : Fin 4) (n : Fin 12) (x : Route) : (s.setRoute k n x).view = s.view := rfl
@[simp] theorem State.setRoute_departing (s : State) (k : Fin 4) (n : Fin 12) (x : Route) : (s.setRoute k n x).departing = s.departing := rfl
@[simp] theorem State.setRoute_capRec (s : State) (k : Fin 4) (n : Fin 12) (x : Route) : (s.setRoute k n x).capRec = s.capRec := rfl
@[simp] theorem State.setRoute_cap (s : State) (k : Fin 4) (n : Fin 12) (x : Route) : (s.setRoute k n x).cap = s.cap := rfl
@[simp] theorem State.setRoute_requests (s : State) (k : Fin 4) (n : Fin 12) (x : Route) : (s.setRoute k n x).requests = s.requests := rfl
@[simp] theorem State.setRoute_managers (s : State) (k : Fin 4) (n : Fin 12) (x : Route) : (s.setRoute k n x).managers = s.managers := rfl
@[simp] theorem State.setRoute_civil (s : State) (k : Fin 4) (n : Fin 12) (x : Route) : (s.setRoute k n x).civil = s.civil := rfl
@[simp] theorem State.setRoute_restart (s : State) (k : Fin 4) (n : Fin 12) (x : Route) : (s.setRoute k n x).restart = s.restart := rfl
@[simp] theorem State.setRoute_notifyCfg (s : State) (k : Fin 4) (n : Fin 12) (x : Route) : (s.setRoute k n x).notifyCfg = s.notifyCfg := rfl
@[simp] theorem State.setRoute_groups (s : State) (k : Fin 4) (n : Fin 12) (x : Route) : (s.setRoute k n x).groups = s.groups := rfl
@[simp] theorem State.setRoute_notifySeq (s : State) (k : Fin 4) (n : Fin 12) (x : Route) : (s.setRoute k n x).notifySeq = s.notifySeq := rfl

/-! ### setLabel -/

@[simp] theorem State.setLabel_pending (s : State) (k : Fin 4) (m : Fin 2) (x : LabelCfg) : (s.setLabel k m x).pending = s.pending := rfl
@[simp] theorem State.setLabel_station (s : State) (k : Fin 4) (m : Fin 2) (x : LabelCfg) : (s.setLabel k m x).station = s.station := rfl
@[simp] theorem State.setLabel_portN (s : State) (k : Fin 4) (m : Fin 2) (x : LabelCfg) : (s.setLabel k m x).portN = s.portN := rfl
@[simp] theorem State.setLabel_portD (s : State) (k : Fin 4) (m : Fin 2) (x : LabelCfg) : (s.setLabel k m x).portD = s.portD := rfl
@[simp] theorem State.setLabel_classify (s : State) (k : Fin 4) (m : Fin 2) (x : LabelCfg) : (s.setLabel k m x).classify = s.classify := rfl
@[simp] theorem State.setLabel_residence (s : State) (k : Fin 4) (m : Fin 2) (x : LabelCfg) : (s.setLabel k m x).residence = s.residence := rfl
@[simp] theorem State.setLabel_copies (s : State) (k : Fin 4) (m : Fin 2) (x : LabelCfg) : (s.setLabel k m x).copies = s.copies := rfl
@[simp] theorem State.setLabel_sources (s : State) (k : Fin 4) (m : Fin 2) (x : LabelCfg) : (s.setLabel k m x).sources = s.sources := rfl
@[simp] theorem State.setLabel_exch (s : State) (k : Fin 4) (m : Fin 2) (x : LabelCfg) : (s.setLabel k m x).exch = s.exch := rfl
@[simp] theorem State.setLabel_time (s : State) (k : Fin 4) (m : Fin 2) (x : LabelCfg) : (s.setLabel k m x).time = s.time := rfl
@[simp] theorem State.setLabel_elapsed (s : State) (k : Fin 4) (m : Fin 2) (x : LabelCfg) : (s.setLabel k m x).elapsed = s.elapsed := rfl
@[simp] theorem State.setLabel_elapsedRem (s : State) (k : Fin 4) (m : Fin 2) (x : LabelCfg) : (s.setLabel k m x).elapsedRem = s.elapsedRem := rfl
@[simp] theorem State.setLabel_prevTime (s : State) (k : Fin 4) (m : Fin 2) (x : LabelCfg) : (s.setLabel k m x).prevTime = s.prevTime := rfl
@[simp] theorem State.setLabel_prevTime2 (s : State) (k : Fin 4) (m : Fin 2) (x : LabelCfg) : (s.setLabel k m x).prevTime2 = s.prevTime2 := rfl
@[simp] theorem State.setLabel_steps (s : State) (k : Fin 4) (m : Fin 2) (x : LabelCfg) : (s.setLabel k m x).steps = s.steps := rfl
@[simp] theorem State.setLabel_servoCfg (s : State) (k : Fin 4) (m : Fin 2) (x : LabelCfg) : (s.setLabel k m x).servoCfg = s.servoCfg := rfl
@[simp] theorem State.setLabel_servo (s : State) (k : Fin 4) (m : Fin 2) (x : LabelCfg) : (s.setLabel k m x).servo = s.servo := rfl
@[simp] theorem State.setLabel_clock (s : State) (k : Fin 4) (m : Fin 2) (x : LabelCfg) : (s.setLabel k m x).clock = s.clock := rfl
@[simp] theorem State.setLabel_active (s : State) (k : Fin 4) (m : Fin 2) (x : LabelCfg) : (s.setLabel k m x).active = s.active := rfl
@[simp] theorem State.setLabel_switch (s : State) (k : Fin 4) (m : Fin 2) (x : LabelCfg) : (s.setLabel k m x).switch = s.switch := rfl
@[simp] theorem State.setLabel_cad (s : State) (k : Fin 4) (m : Fin 2) (x : LabelCfg) : (s.setLabel k m x).cad = s.cad := rfl
@[simp] theorem State.setLabel_ser (s : State) (k : Fin 4) (m : Fin 2) (x : LabelCfg) : (s.setLabel k m x).ser = s.ser := rfl
@[simp] theorem State.setLabel_pins (s : State) (k : Fin 4) (m : Fin 2) (x : LabelCfg) : (s.setLabel k m x).pins = s.pins := rfl
@[simp] theorem State.setLabel_view (s : State) (k : Fin 4) (m : Fin 2) (x : LabelCfg) : (s.setLabel k m x).view = s.view := rfl
@[simp] theorem State.setLabel_departing (s : State) (k : Fin 4) (m : Fin 2) (x : LabelCfg) : (s.setLabel k m x).departing = s.departing := rfl
@[simp] theorem State.setLabel_capRec (s : State) (k : Fin 4) (m : Fin 2) (x : LabelCfg) : (s.setLabel k m x).capRec = s.capRec := rfl
@[simp] theorem State.setLabel_cap (s : State) (k : Fin 4) (m : Fin 2) (x : LabelCfg) : (s.setLabel k m x).cap = s.cap := rfl
@[simp] theorem State.setLabel_requests (s : State) (k : Fin 4) (m : Fin 2) (x : LabelCfg) : (s.setLabel k m x).requests = s.requests := rfl
@[simp] theorem State.setLabel_managers (s : State) (k : Fin 4) (m : Fin 2) (x : LabelCfg) : (s.setLabel k m x).managers = s.managers := rfl
@[simp] theorem State.setLabel_civil (s : State) (k : Fin 4) (m : Fin 2) (x : LabelCfg) : (s.setLabel k m x).civil = s.civil := rfl
@[simp] theorem State.setLabel_restart (s : State) (k : Fin 4) (m : Fin 2) (x : LabelCfg) : (s.setLabel k m x).restart = s.restart := rfl
@[simp] theorem State.setLabel_notifyCfg (s : State) (k : Fin 4) (m : Fin 2) (x : LabelCfg) : (s.setLabel k m x).notifyCfg = s.notifyCfg := rfl
@[simp] theorem State.setLabel_groups (s : State) (k : Fin 4) (m : Fin 2) (x : LabelCfg) : (s.setLabel k m x).groups = s.groups := rfl
@[simp] theorem State.setLabel_notifySeq (s : State) (k : Fin 4) (m : Fin 2) (x : LabelCfg) : (s.setLabel k m x).notifySeq = s.notifySeq := rfl

/-! ### setPort -/

@[simp] theorem State.setPort_pending (s : State) (p : Port) (x : PortState) : (s.setPort p x).pending = s.pending := by
  cases p <;> rfl
@[simp] theorem State.setPort_station (s : State) (p : Port) (x : PortState) : (s.setPort p x).station = s.station := by
  cases p <;> rfl
@[simp] theorem State.setPort_classify (s : State) (p : Port) (x : PortState) : (s.setPort p x).classify = s.classify := by
  cases p <;> rfl
@[simp] theorem State.setPort_residence (s : State) (p : Port) (x : PortState) : (s.setPort p x).residence = s.residence := by
  cases p <;> rfl
@[simp] theorem State.setPort_copies (s : State) (p : Port) (x : PortState) : (s.setPort p x).copies = s.copies := by
  cases p <;> rfl
@[simp] theorem State.setPort_sources (s : State) (p : Port) (x : PortState) : (s.setPort p x).sources = s.sources := by
  cases p <;> rfl
@[simp] theorem State.setPort_exch (s : State) (p : Port) (x : PortState) : (s.setPort p x).exch = s.exch := by
  cases p <;> rfl
@[simp] theorem State.setPort_time (s : State) (p : Port) (x : PortState) : (s.setPort p x).time = s.time := by
  cases p <;> rfl
@[simp] theorem State.setPort_elapsed (s : State) (p : Port) (x : PortState) : (s.setPort p x).elapsed = s.elapsed := by
  cases p <;> rfl
@[simp] theorem State.setPort_elapsedRem (s : State) (p : Port) (x : PortState) : (s.setPort p x).elapsedRem = s.elapsedRem := by
  cases p <;> rfl
@[simp] theorem State.setPort_prevTime (s : State) (p : Port) (x : PortState) : (s.setPort p x).prevTime = s.prevTime := by
  cases p <;> rfl
@[simp] theorem State.setPort_prevTime2 (s : State) (p : Port) (x : PortState) : (s.setPort p x).prevTime2 = s.prevTime2 := by
  cases p <;> rfl
@[simp] theorem State.setPort_steps (s : State) (p : Port) (x : PortState) : (s.setPort p x).steps = s.steps := by
  cases p <;> rfl
@[simp] theorem State.setPort_servoCfg (s : State) (p : Port) (x : PortState) : (s.setPort p x).servoCfg = s.servoCfg := by
  cases p <;> rfl
@[simp] theorem State.setPort_servo (s : State) (p : Port) (x : PortState) : (s.setPort p x).servo = s.servo := by
  cases p <;> rfl
@[simp] theorem State.setPort_clock (s : State) (p : Port) (x : PortState) : (s.setPort p x).clock = s.clock := by
  cases p <;> rfl
@[simp] theorem State.setPort_banks (s : State) (p : Port) (x : PortState) : (s.setPort p x).banks = s.banks := by
  cases p <;> rfl
@[simp] theorem State.setPort_active (s : State) (p : Port) (x : PortState) : (s.setPort p x).active = s.active := by
  cases p <;> rfl
@[simp] theorem State.setPort_switch (s : State) (p : Port) (x : PortState) : (s.setPort p x).switch = s.switch := by
  cases p <;> rfl
@[simp] theorem State.setPort_cad (s : State) (p : Port) (x : PortState) : (s.setPort p x).cad = s.cad := by
  cases p <;> rfl
@[simp] theorem State.setPort_ser (s : State) (p : Port) (x : PortState) : (s.setPort p x).ser = s.ser := by
  cases p <;> rfl
@[simp] theorem State.setPort_pins (s : State) (p : Port) (x : PortState) : (s.setPort p x).pins = s.pins := by
  cases p <;> rfl
@[simp] theorem State.setPort_view (s : State) (p : Port) (x : PortState) : (s.setPort p x).view = s.view := by
  cases p <;> rfl
@[simp] theorem State.setPort_departing (s : State) (p : Port) (x : PortState) : (s.setPort p x).departing = s.departing := by
  cases p <;> rfl
@[simp] theorem State.setPort_capRec (s : State) (p : Port) (x : PortState) : (s.setPort p x).capRec = s.capRec := by
  cases p <;> rfl
@[simp] theorem State.setPort_cap (s : State) (p : Port) (x : PortState) : (s.setPort p x).cap = s.cap := by
  cases p <;> rfl
@[simp] theorem State.setPort_requests (s : State) (p : Port) (x : PortState) : (s.setPort p x).requests = s.requests := by
  cases p <;> rfl
@[simp] theorem State.setPort_managers (s : State) (p : Port) (x : PortState) : (s.setPort p x).managers = s.managers := by
  cases p <;> rfl
@[simp] theorem State.setPort_civil (s : State) (p : Port) (x : PortState) : (s.setPort p x).civil = s.civil := by
  cases p <;> rfl
@[simp] theorem State.setPort_restart (s : State) (p : Port) (x : PortState) : (s.setPort p x).restart = s.restart := by
  cases p <;> rfl
@[simp] theorem State.setPort_notifyCfg (s : State) (p : Port) (x : PortState) : (s.setPort p x).notifyCfg = s.notifyCfg := by
  cases p <;> rfl
@[simp] theorem State.setPort_groups (s : State) (p : Port) (x : PortState) : (s.setPort p x).groups = s.groups := by
  cases p <;> rfl
@[simp] theorem State.setPort_notifySeq (s : State) (p : Port) (x : PortState) : (s.setPort p x).notifySeq = s.notifySeq := by
  cases p <;> rfl

@[simp] theorem State.setPort_port (s : State) (p : Port) (x : PortState) : (s.setPort p x).port p = x := by
  cases p <;> rfl

@[simp] theorem State.setPort_other (s : State) (p : Port) (x : PortState) :
    (s.setPort p x).port (otherPort p) = s.port (otherPort p) := by
  cases p <;> rfl

/-! ### setQueue -/

@[simp] theorem PortState.setQueue_queue (x : PortState) (c : TClass) (q : List EgressEntry) :
    (x.setQueue c q).queue c = q := by
  cases c <;> rfl

@[simp] theorem PortState.setQueue_link (x : PortState) (c : TClass) (q : List EgressEntry) :
    (x.setQueue c q).link = x.link := by
  cases c <;> rfl

@[simp] theorem PortState.setQueue_tx (x : PortState) (c : TClass) (q : List EgressEntry) :
    (x.setQueue c q).tx = x.tx := by
  cases c <;> rfl

@[simp] theorem PortState.setQueue_receiving (x : PortState) (c : TClass) (q : List EgressEntry) :
    (x.setQueue c q).receiving = x.receiving := by
  cases c <;> rfl

@[simp] theorem PortState.setQueue_unstamped (x : PortState) (c : TClass) (q : List EgressEntry) :
    (x.setQueue c q).unstamped = x.unstamped := by
  cases c <;> rfl

@[simp] theorem PortState.setQueue_records (x : PortState) (c : TClass) (q : List EgressEntry) :
    (x.setQueue c q).records = x.records := by
  cases c <;> rfl

/-! ### What a set entry reads as -/

@[simp] theorem State.setCad_same (s : State) (n : Fin 8) (x : CadRun) : (s.setCad n x).cad[n] = x := by
  simp [State.setCad]

@[simp] theorem State.setSer_same (s : State) (m : Fin 2) (x : Serializer) : (s.setSer m x).ser[m] = x := by
  simp [State.setSer]

@[simp] theorem State.setCap_same (s : State) (n : Fin 4) (x : CapLine) : (s.setCap n x).cap[n] = x := by
  simp [State.setCap]

@[simp] theorem State.setGroup_same (s : State) (g : Fin 4) (x : Group) : (s.setGroup g x).groups[g] = x := by
  simp [State.setGroup]

@[simp] theorem State.setSource_same (s : State) (i : Fin 8) (x : Option SourceRec) :
    (s.setSource i x).sources[i] = x := by
  simp [State.setSource]

end Sys2Proof.Machine
end

