-- ==== Sys2Proof/Laws/Ops.lean ====
section
/-!
SUPPORT. Laws/Ops.lean: for each shared operation what it can do, said once.
-/

namespace Sys2Proof.Machine

/-! ### Every command answers a next state -/

/-- Every command answers a next state (assumption 1). -/
theorem exec_next (c : Instr) (s : State) : ∃ t, exec c s = .next t := by
  cases c <;> exact ⟨_, rfl⟩

/-! ### Lists and vectors -/

theorem pushNewest_length {α : Type} (cap : Nat) (x : α) (xs : List α) :
    (pushNewest cap x xs).length = min cap (xs.length + 1) := by
  simp only [pushNewest, List.length_drop, List.length_append, List.length_singleton]
  omega

theorem pushNewest_of_room {α : Type} (cap : Nat) (x : α) (xs : List α) (h : xs.length < cap) :
    pushNewest cap x xs = xs ++ [x] := by
  have h0 : xs.length + 1 - cap = 0 := by omega
  simp [pushNewest, h0]

theorem mem_of_mem_pushNewest {α : Type} {cap : Nat} {x y : α} {xs : List α} (h : y ∈ pushNewest cap x xs) :
    y ∈ xs ∨ y = x := by
  have h1 := List.mem_of_mem_drop h
  simpa using h1

@[simp] theorem mapCap_get (f : Fin 4 → CapLine → CapLine) (v : Vector CapLine 4) (n : Fin 4) :
    (mapCap f v)[n] = f n v[n] := by
  fin_cases n <;> rfl

@[simp] theorem mapSources_get (f : Option SourceRec → Option SourceRec) (v : Vector (Option SourceRec) 8)
    (i : Fin 8) : (mapSources f v)[i] = f v[i] := by
  fin_cases i <;> rfl

@[simp] theorem mapCad_get (f : CadRun → CadRun) (v : Vector CadRun 8) (n : Fin 8) : (mapCad f v)[n] = f v[n] := by
  fin_cases n <;> rfl

@[simp] theorem tickCads_get (s : State) (n : Fin 8) : (tickCads s).cad[n] = s.cad[n].tick := mapCad_get _ _ n

@[simp] theorem limitPulses_get (s : State) (n : Fin 8) :
    (limitPulses s).cad[n] = { s.cad[n] with pulse := limitPulse s s.cad[n].pulse } := mapCad_get _ _ n

/-! ### The counters -/

theorem TimeVal.total_ofTotal (v : Nat) : (TimeVal.ofTotal v).total = v := by
  simp only [TimeVal.total, TimeVal.totalNs, TimeVal.ofTotal, BitVec.toNat_ofNat]
  omega

theorem TimeVal.total_top : TimeVal.top.total = limitTotal - 1 := by decide

/-- The advance of the time counter: the amount is added, up to the top of the range (R92). -/
theorem TimeVal.advance_total (t : TimeVal) (amount : Nat) :
    (t.advance amount).total = min (t.total + amount) (limitTotal - 1) := by
  have h : 0 < limitTotal := by decide
  unfold TimeVal.advance
  split
  · rw [TimeVal.total_ofTotal]; omega
  · rw [TimeVal.total_top]; omega

/-- The elapsed counter with its remainder gains the amount modulo 2^88 (R93). -/
theorem advanceCounters_elapsed (amount : Nat) (s : State) :
    elapsedTotal (advanceCounters amount s).elapsed (advanceCounters amount s).elapsedRem =
      (elapsedTotal s.elapsed s.elapsedRem + amount) % 2 ^ 88 := by
  simp only [elapsedTotal, advanceCounters, BitVec.toNat_ofNat]
  omega

/-! ### Arrival at a queue and raising an event -/

/-- The three outcomes of an arrival (R8). -/
theorem arrive_cases (p : Port) (c : TClass) (e : EgressEntry) (s : State) :
    ((s.port p).link = .down ∧ arrive p c e s = s) ∨
      (canJoin p c s = true ∧
        arrive p c e s = s.setPort p ((s.port p).setQueue c ((s.port p).queue c ++ [e]))) ∨
      ((s.port p).link = .up ∧ queueCap c ≤ ((s.port p).queue c).length ∧
        arrive p c e s = raise (.queueDrop p) s) := by
  unfold arrive arriveWith canJoin
  cases hl : (s.port p).link <;> by_cases hq : ((s.port p).queue c).length < queueCap c <;> simp [hl, hq]
  omega

theorem notifierFrame_refl (s : State) : s.notifierFrame s := ⟨_, _, _, _, rfl⟩

theorem notifierFrame_trans {s t u : State} (h : s.notifierFrame t) (k : t.notifierFrame u) : s.notifierFrame u := by
  obtain ⟨_, _, _, _, rfl⟩ := h
  obtain ⟨_, _, _, _, rfl⟩ := k
  exact ⟨_, _, _, _, rfl⟩

theorem setGroup_frame (s : State) (g : Fin 4) (x : Group) : s.notifierFrame (s.setGroup g x) := ⟨_, _, _, _, rfl⟩

theorem arriveWith_frame (drop : Event → State → State)
    (hd : ∀ (e : Event) (s : State), s.notifierFrame (drop e s)) (p : Port)
    (e : EgressEntry) (s : State) : s.notifierFrame (arriveWith drop p .ordinary e s) := by
  unfold arriveWith
  dsimp only
  split
  · exact notifierFrame_refl s
  · split
    · cases p <;> exact ⟨_, _, _, _, rfl⟩
    · exact hd _ _

theorem notifyWith_frame (drop : Event → State → State)
    (hd : ∀ (e : Event) (s : State), s.notifierFrame (drop e s)) (g : Fin 4)
    (dst : Addr) (s : State) : s.notifierFrame (notifyWith drop g dst s) :=
  notifierFrame_trans ⟨_, _, _, _, rfl⟩ (arriveWith_frame drop hd _ _ _)

theorem groupActWith_frame (drop : Event → State → State)
    (hd : ∀ (e : Event) (s : State), s.notifierFrame (drop e s)) (g : Fin 4)
    (s : State) : s.notifierFrame (groupActWith drop g s) := by
  unfold groupActWith
  split
  · exact notifierFrame_refl s
  · split
    · exact notifyWith_frame drop hd _ _ _
    · exact notifierFrame_trans (setGroup_frame _ _ _) (notifyWith_frame drop hd _ _ _)
  · exact setGroup_frame _ _ _

theorem raiseDepth_frame (n : Nat) : ∀ (e : Event) (s : State), s.notifierFrame (raiseDepth n e s) := by
  induction n with
  | zero => intro e s; exact notifierFrame_refl s
  | succ n ih =>
    intro e s
    unfold raiseDepth
    dsimp only
    split
    · exact notifierFrame_refl s
    · split
      · exact notifierFrame_trans (setGroup_frame _ _ _) (groupActWith_frame _ ih _ _)
      · exact setGroup_frame _ _ _

/-- Raising an event changes nothing but the ordinary-class queues, the groups and the notification sequence. -/
theorem raise_frame (e : Event) (s : State) : s.notifierFrame (raise e s) := raiseDepth_frame 4 e s

theorem raiseIf_frame (c : Bool) (e : Event) (s : State) : s.notifierFrame (raiseIf c e s) := by
  cases c
  · exact notifierFrame_refl s
  · exact raise_frame e s

theorem raise_of_pending (e : Event) (s : State) (h : s.isPending e = true) : raise e s = s := by
  simp [raise, raiseDepth, h]

theorem arrivalFrame_of_notifierFrame {s t : State} (h : s.notifierFrame t) : s.arrivalFrame t := by
  obtain ⟨_, _, _, _, rfl⟩ := h
  exact ⟨_, _, _, _, _, _, rfl⟩

theorem arrivalFrame_trans {s t u : State} (h : s.arrivalFrame t) (k : t.arrivalFrame u) : s.arrivalFrame u := by
  obtain ⟨_, _, _, _, _, _, rfl⟩ := h
  obtain ⟨_, _, _, _, _, _, rfl⟩ := k
  exact ⟨_, _, _, _, _, _, rfl⟩

/-- An arrival changes nothing but the queues, the groups and the notification sequence. -/
theorem arrive_frame (p : Port) (c : TClass) (e : EgressEntry) (s : State) : s.arrivalFrame (arrive p c e s) := by
  unfold arrive arriveWith
  dsimp only
  split
  · exact ⟨_, _, _, _, _, _, rfl⟩
  · split
    · cases p <;> cases c <;> exact ⟨_, _, _, _, _, _, rfl⟩
    · exact arrivalFrame_of_notifierFrame (raise_frame _ _)

/-- A response changes nothing but the queues, the groups and the notification sequence. -/
theorem respond_frame (r : Request) (a : Reply) : a.after.arrivalFrame (respond r a) := arrive_frame _ _ _ _

/-! ### The agent -/

/-- What the agent does with a request for one command (R194, R195): nothing when it may not begin one or the oldest
request names another command; else a refusal under the checks of R195, or the command's own answer. -/
theorem serve_cases (c : Command) (core : List Byte → State → Reply) (s : State) :
    serve c core s = s ∨
      ∃ r rest, s.restart = .idle ∧ s.requests = r :: rest ∧ commandOf r.code = some c ∧
        ((∃ st, precheck { s with requests := rest } c r = some st ∧
            serve c core s = respond r { st := st, body := [], after := { s with requests := rest } }) ∨
          (precheck { s with requests := rest } c r = none ∧
            serve c core s = respond r (core r.body { s with requests := rest }))) := by
  unfold serve
  split
  · rename_i r rest hr hq
    split
    · rename_i hc
      refine Or.inr ⟨r, rest, hr, hq, hc, ?_⟩
      dsimp only
      split
      · rename_i st hp; exact Or.inl ⟨st, hp, rfl⟩
      · rename_i hp; exact Or.inr ⟨hp, rfl⟩
    · exact Or.inl rfl
  · exact Or.inl rfl

/-- A request that passes the checks of R195 is carried out. -/
theorem serve_carriesOut (c : Command) (core : List Byte → State → Reply) (s : State) (r : Request)
    (rest : List Request) (h : s.carriesOut c r rest) :
    serve c core s = respond r (core r.body { s with requests := rest }) := by
  obtain ⟨h1, h2, h3, h4, h5, h6⟩ := h
  have hp : precheck { s with requests := rest } c r = none := by
    have hm : permitted { s with requests := rest } c r.src r.body = true := h6
    simp [precheck, hm, Nat.not_lt.mpr h4, Nat.not_lt.mpr h5]
  unfold serve
  split
  · rename_i r' rest' _ hq
    obtain ⟨rfl, rfl⟩ := List.cons.inj (hq.symm.trans h2)
    simp only [h3, if_pos]
    rw [hp]
  · rename_i hn
    exact absurd h2 (hn r rest h1)

/-! ### Outputs -/

/-- Showing the levels of a tick changes only the serializers' outputs, the pins and the view. -/
theorem showOutputs_frame (v : TickView) (s : State) :
    ∃ (ser : Vector Serializer 2) (pins : Vector Bool 12),
      showOutputs v s = { s with ser := ser, pins := pins, view := none } :=
  ⟨_, _, rfl⟩

@[simp] theorem showOutputs_word (v : TickView) (s : State) (m : Fin 2) :
    (showOutputs v s).ser[m].word = s.ser[m].word := by
  fin_cases m <;> rfl

@[simp] theorem showOutputs_stepSeen (v : TickView) (s : State) (m : Fin 2) :
    (showOutputs v s).ser[m].stepSeen = s.ser[m].stepSeen := by
  fin_cases m <;> rfl

/-- A serializer shows the outputs of the tick (R168). -/
theorem showOutputs_outputs (v : TickView) (s : State) (m : Fin 2) :
    ((showOutputs v s).ser[m].data, (showOutputs v s).ser[m].clk) = v.ser[m] := by
  fin_cases m <;> rfl

/-- A pin takes its route's level at the tick (R159). -/
theorem showOutputs_pins (v : TickView) (s : State) (i : Fin 12) :
    (showOutputs v s).pins[i] = (v.lines[i]).level v := by
  fin_cases i <;> rfl

/-- What a tick shows of the flags is settled at the tick (R159). -/
theorem follow_flags (s t : State) (v : TickView) :
    (v.follow s t).locked = v.locked ∧ (v.follow s t).traced = v.traced ∧ (v.follow s t).backup = v.backup := by
  unfold TickView.follow
  split <;> exact ⟨rfl, rfl, rfl⟩

/-- An event that makes no switch brings in what it changed, and no route. -/
theorem follow_of_switch_eq (s t : State) (v : TickView) (h : t.switch = s.switch) :
    (v.follow s t).lines = v.lines ∧ (∀ n : Fin 8, (v.follow s t).active[n] = v.cadAfter s t n) ∧
      ∀ m : Fin 2, (v.follow s t).ser[m] = v.serAfter s t m := by
  unfold TickView.follow
  rw [if_pos h]
  refine ⟨rfl, fun n => ?_, fun m => ?_⟩
  · fin_cases n <;> rfl
  · fin_cases m <;> rfl

/-- A switch brings in the routes, the cadences and the serializers as the incoming bank leaves them (R156, R173). -/
theorem follow_of_switch_ne (s t : State) (v : TickView) (h : t.switch ≠ s.switch) :
    (v.follow s t).lines = t.bank.lines ∧ (∀ n : Fin 8, (v.follow s t).active[n] = t.isLive n) ∧
      ∀ m : Fin 2, (v.follow s t).ser[m] = t.serOutputs m := by
  unfold TickView.follow
  rw [if_neg h]
  refine ⟨rfl, fun n => ?_, fun m => ?_⟩
  · fin_cases n <;> rfl
  · fin_cases m <;> rfl

/-- What settling can do: nothing while no tick is open or an event of it is to come, else the tick's levels are shown.
-/
theorem settleTick_cases (s : State) :
    (s.view = none ∧ settleTick s = s) ∨ (∃ v, s.view = some v ∧ s.eventReached = true ∧ settleTick s = s) ∨
      ∃ v, s.view = some v ∧ s.eventReached = false ∧ settleTick s = showOutputs v s := by
  unfold settleTick
  split
  · rename_i v h
    cases hr : s.eventReached <;> simp [h]
  · rename_i h
    exact Or.inl ⟨h, rfl⟩

theorem settleTick_of_none (s : State) (h : s.view = none) : settleTick s = s := by
  simp [settleTick, h]

/-- Settling changes only the serializers' outputs, the pins and the view. -/
theorem settleTick_frame (s : State) :
    ∃ (ser : Vector Serializer 2) (pins : Vector Bool 12) (view : Option TickView),
      settleTick s = { s with ser := ser, pins := pins, view := view } := by
  obtain ⟨_, h⟩ | ⟨_, _, _, h⟩ | ⟨v, _, _, h⟩ := settleTick_cases s
  · exact ⟨s.ser, s.pins, s.view, h⟩
  · exact ⟨s.ser, s.pins, s.view, h⟩
  · exact ⟨_, _, none, h⟩

@[simp] theorem settleTick_word (s : State) (m : Fin 2) : (settleTick s).ser[m].word = s.ser[m].word := by
  obtain ⟨_, h⟩ | ⟨_, _, _, h⟩ | ⟨v, _, _, h⟩ := settleTick_cases s
  · rw [h]
  · rw [h]
  · rw [h]
    exact showOutputs_word v s m

@[simp] theorem settleTick_stepSeen (s : State) (m : Fin 2) :
    (settleTick s).ser[m].stepSeen = s.ser[m].stepSeen := by
  obtain ⟨_, h⟩ | ⟨_, _, _, h⟩ | ⟨v, _, _, h⟩ := settleTick_cases s
  · rw [h]
  · rw [h]
  · rw [h]
    exact showOutputs_stepSeen v s m

@[simp] theorem endEvent_word (s t : State) (m : Fin 2) : (endEvent s t).ser[m].word = t.ser[m].word :=
  settleTick_word _ m

@[simp] theorem endEvent_stepSeen (s t : State) (m : Fin 2) :
    (endEvent s t).ser[m].stepSeen = t.ser[m].stepSeen :=
  settleTick_stepSeen _ m

@[simp] theorem settleTick_pending (s : State) : (settleTick s).pending = s.pending := by
  obtain ⟨_, _, _, h⟩ := settleTick_frame s
  rw [h]
@[simp] theorem endEvent_pending (s t : State) : (endEvent s t).pending = t.pending := by simp [endEvent]
@[simp] theorem settleTick_station (s : State) : (settleTick s).station = s.station := by
  obtain ⟨_, _, _, h⟩ := settleTick_frame s
  rw [h]
@[simp] theorem endEvent_station (s t : State) : (endEvent s t).station = t.station := by simp [endEvent]
@[simp] theorem settleTick_portN (s : State) : (settleTick s).portN = s.portN := by
  obtain ⟨_, _, _, h⟩ := settleTick_frame s
  rw [h]
@[simp] theorem endEvent_portN (s t : State) : (endEvent s t).portN = t.portN := by simp [endEvent]
@[simp] theorem settleTick_portD (s : State) : (settleTick s).portD = s.portD := by
  obtain ⟨_, _, _, h⟩ := settleTick_frame s
  rw [h]
@[simp] theorem endEvent_portD (s t : State) : (endEvent s t).portD = t.portD := by simp [endEvent]
@[simp] theorem settleTick_departing (s : State) : (settleTick s).departing = s.departing := by
  obtain ⟨_, _, _, h⟩ := settleTick_frame s
  rw [h]
@[simp] theorem endEvent_departing (s t : State) : (endEvent s t).departing = t.departing := by simp [endEvent]
@[simp] theorem settleTick_classify (s : State) : (settleTick s).classify = s.classify := by
  obtain ⟨_, _, _, h⟩ := settleTick_frame s
  rw [h]
@[simp] theorem endEvent_classify (s t : State) : (endEvent s t).classify = t.classify := by simp [endEvent]
@[simp] theorem settleTick_residence (s : State) : (settleTick s).residence = s.residence := by
  obtain ⟨_, _, _, h⟩ := settleTick_frame s
  rw [h]
@[simp] theorem endEvent_residence (s t : State) : (endEvent s t).residence = t.residence := by simp [endEvent]
@[simp] theorem settleTick_copies (s : State) : (settleTick s).copies = s.copies := by
  obtain ⟨_, _, _, h⟩ := settleTick_frame s
  rw [h]
@[simp] theorem endEvent_copies (s t : State) : (endEvent s t).copies = t.copies := by simp [endEvent]
@[simp] theorem settleTick_sources (s : State) : (settleTick s).sources = s.sources := by
  obtain ⟨_, _, _, h⟩ := settleTick_frame s
  rw [h]
@[simp] theorem endEvent_sources (s t : State) : (endEvent s t).sources = t.sources := by simp [endEvent]
@[simp] theorem settleTick_exch (s : State) : (settleTick s).exch = s.exch := by
  obtain ⟨_, _, _, h⟩ := settleTick_frame s
  rw [h]
@[simp] theorem endEvent_exch (s t : State) : (endEvent s t).exch = t.exch := by simp [endEvent]
@[simp] theorem settleTick_time (s : State) : (settleTick s).time = s.time := by
  obtain ⟨_, _, _, h⟩ := settleTick_frame s
  rw [h]
@[simp] theorem endEvent_time (s t : State) : (endEvent s t).time = t.time := by simp [endEvent]
@[simp] theorem settleTick_elapsed (s : State) : (settleTick s).elapsed = s.elapsed := by
  obtain ⟨_, _, _, h⟩ := settleTick_frame s
  rw [h]
@[simp] theorem endEvent_elapsed (s t : State) : (endEvent s t).elapsed = t.elapsed := by simp [endEvent]
@[simp] theorem settleTick_elapsedRem (s : State) : (settleTick s).elapsedRem = s.elapsedRem := by
  obtain ⟨_, _, _, h⟩ := settleTick_frame s
  rw [h]
@[simp] theorem endEvent_elapsedRem (s t : State) : (endEvent s t).elapsedRem = t.elapsedRem := by simp [endEvent]
@[simp] theorem settleTick_prevTime (s : State) : (settleTick s).prevTime = s.prevTime := by
  obtain ⟨_, _, _, h⟩ := settleTick_frame s
  rw [h]
@[simp] theorem endEvent_prevTime (s t : State) : (endEvent s t).prevTime = t.prevTime := by simp [endEvent]
@[simp] theorem settleTick_prevTime2 (s : State) : (settleTick s).prevTime2 = s.prevTime2 := by
  obtain ⟨_, _, _, h⟩ := settleTick_frame s
  rw [h]
@[simp] theorem endEvent_prevTime2 (s t : State) : (endEvent s t).prevTime2 = t.prevTime2 := by simp [endEvent]
@[simp] theorem settleTick_steps (s : State) : (settleTick s).steps = s.steps := by
  obtain ⟨_, _, _, h⟩ := settleTick_frame s
  rw [h]
@[simp] theorem endEvent_steps (s t : State) : (endEvent s t).steps = t.steps := by simp [endEvent]
@[simp] theorem settleTick_servoCfg (s : State) : (settleTick s).servoCfg = s.servoCfg := by
  obtain ⟨_, _, _, h⟩ := settleTick_frame s
  rw [h]
@[simp] theorem endEvent_servoCfg (s t : State) : (endEvent s t).servoCfg = t.servoCfg := by simp [endEvent]
@[simp] theorem settleTick_servo (s : State) : (settleTick s).servo = s.servo := by
  obtain ⟨_, _, _, h⟩ := settleTick_frame s
  rw [h]
@[simp] theorem endEvent_servo (s t : State) : (endEvent s t).servo = t.servo := by simp [endEvent]
@[simp] theorem settleTick_clock (s : State) : (settleTick s).clock = s.clock := by
  obtain ⟨_, _, _, h⟩ := settleTick_frame s
  rw [h]
@[simp] theorem endEvent_clock (s t : State) : (endEvent s t).clock = t.clock := by simp [endEvent]
@[simp] theorem settleTick_banks (s : State) : (settleTick s).banks = s.banks := by
  obtain ⟨_, _, _, h⟩ := settleTick_frame s
  rw [h]
@[simp] theorem endEvent_banks (s t : State) : (endEvent s t).banks = t.banks := by simp [endEvent]
@[simp] theorem settleTick_active (s : State) : (settleTick s).active = s.active := by
  obtain ⟨_, _, _, h⟩ := settleTick_frame s
  rw [h]
@[simp] theorem endEvent_active (s t : State) : (endEvent s t).active = t.active := by simp [endEvent]
@[simp] theorem settleTick_switch (s : State) : (settleTick s).switch = s.switch := by
  obtain ⟨_, _, _, h⟩ := settleTick_frame s
  rw [h]
@[simp] theorem endEvent_switch (s t : State) : (endEvent s t).switch = t.switch := by simp [endEvent]
@[simp] theorem settleTick_cad (s : State) : (settleTick s).cad = s.cad := by
  obtain ⟨_, _, _, h⟩ := settleTick_frame s
  rw [h]
@[simp] theorem endEvent_cad (s t : State) : (endEvent s t).cad = t.cad := by simp [endEvent]
@[simp] theorem settleTick_capRec (s : State) : (settleTick s).capRec = s.capRec := by
  obtain ⟨_, _, _, h⟩ := settleTick_frame s
  rw [h]
@[simp] theorem endEvent_capRec (s t : State) : (endEvent s t).capRec = t.capRec := by simp [endEvent]
@[simp] theorem settleTick_cap (s : State) : (settleTick s).cap = s.cap := by
  obtain ⟨_, _, _, h⟩ := settleTick_frame s
  rw [h]
@[simp] theorem endEvent_cap (s t : State) : (endEvent s t).cap = t.cap := by simp [endEvent]
@[simp] theorem settleTick_requests (s : State) : (settleTick s).requests = s.requests := by
  obtain ⟨_, _, _, h⟩ := settleTick_frame s
  rw [h]
@[simp] theorem endEvent_requests (s t : State) : (endEvent s t).requests = t.requests := by simp [endEvent]
@[simp] theorem settleTick_managers (s : State) : (settleTick s).managers = s.managers := by
  obtain ⟨_, _, _, h⟩ := settleTick_frame s
  rw [h]
@[simp] theorem endEvent_managers (s t : State) : (endEvent s t).managers = t.managers := by simp [endEvent]
@[simp] theorem settleTick_civil (s : State) : (settleTick s).civil = s.civil := by
  obtain ⟨_, _, _, h⟩ := settleTick_frame s
  rw [h]
@[simp] theorem endEvent_civil (s t : State) : (endEvent s t).civil = t.civil := by simp [endEvent]
@[simp] theorem settleTick_restart (s : State) : (settleTick s).restart = s.restart := by
  obtain ⟨_, _, _, h⟩ := settleTick_frame s
  rw [h]
@[simp] theorem endEvent_restart (s t : State) : (endEvent s t).restart = t.restart := by simp [endEvent]
@[simp] theorem settleTick_notifyCfg (s : State) : (settleTick s).notifyCfg = s.notifyCfg := by
  obtain ⟨_, _, _, h⟩ := settleTick_frame s
  rw [h]
@[simp] theorem endEvent_notifyCfg (s t : State) : (endEvent s t).notifyCfg = t.notifyCfg := by simp [endEvent]
@[simp] theorem settleTick_groups (s : State) : (settleTick s).groups = s.groups := by
  obtain ⟨_, _, _, h⟩ := settleTick_frame s
  rw [h]
@[simp] theorem endEvent_groups (s t : State) : (endEvent s t).groups = t.groups := by simp [endEvent]
@[simp] theorem settleTick_notifySeq (s : State) : (settleTick s).notifySeq = s.notifySeq := by
  obtain ⟨_, _, _, h⟩ := settleTick_frame s
  rw [h]
@[simp] theorem endEvent_notifySeq (s t : State) : (endEvent s t).notifySeq = t.notifySeq := by simp [endEvent]

/-! ### Departures -/

/-- A departure hands over by its origin: a marked frame to the corrector, a Probe to the exchange unit (R10). -/
theorem handOver_cases (d : Departure) (s : State) :
    (∃ ing mark, d.entry.origin = .forwarded ing (some mark) ∧
        let r := consult d.port d.entry.bytes ing (egressStamp s d.latency) mark s
        handOver d s = r.2.setPort d.port ((r.2.port d.port).answered d.sending r.1)) ∨
      (∃ seq, d.entry.origin = .probe seq ∧ handOver d s = probeDeparted seq (egressStamp s d.latency) s) ∨
      d.entry.takesStamp = false ∧ handOver d s = s := by
  unfold handOver EgressEntry.takesStamp
  dsimp only
  split
  · rename_i ing mark h
    exact Or.inl ⟨ing, mark, h, rfl⟩
  · rename_i seq h
    exact Or.inr (Or.inl ⟨seq, h, rfl⟩)
  · exact Or.inr (Or.inr ⟨rfl, rfl⟩)

/-- With no departure waiting nothing is handed over. -/
theorem handOverThose_none (now : Departure → Bool) (s : State) (h : s.departing = []) : handOverThose now s = s := by
  have hx : { s with departing := [] } = s := by rw [← h]
  simp only [handOverThose, h, List.filter_nil, List.foldl_nil, hx]

/-- The departures that wait are handed over in their order: the oldest first. -/
theorem handOverThose_cons (s : State) (d : Departure) (rest : List Departure) (h : s.departing = d :: rest) :
    handOverThose (fun _ => true) s =
      rest.foldl (fun t x => handOver x t) (handOver d { s with departing := [] }) := by
  simp [handOverThose, h]

/-- A tick's ingress changes nothing but the port, and of the port only its records and what waits for a stamp (R3). -/
theorem takeIngress_frame (p : Port) (start : Bool) (s : State) :
    ∃ (recs : List FrameRec) (rx : Option Stamp),
      takeIngress p start s =
        s.setPort p { s.port p with records := (s.port p).records ++ recs, unstamped := [], receiving := rx } :=
  ⟨_, _, rfl⟩

/-! ### Edges -/

/-- Edges lie at least floor(P) apart. -/
theorem edgeTime_succ_ge (r : CadRec) (k : Nat) : r.edgeTime k + r.floorP ≤ r.edgeTime (k + 1) := by
  unfold CadRec.edgeTime CadRec.floorP
  have h : k * r.span / r.num + r.span / r.num ≤ (k + 1) * r.span / r.num := by
    rw [Nat.succ_mul]
    exact Nat.div_add_div_le_add_div
  omega

theorem edgeTime_mono (r : CadRec) {j k : Nat} (h : j ≤ k) : r.edgeTime j ≤ r.edgeTime k := by
  unfold CadRec.edgeTime
  have h1 : j * r.span ≤ k * r.span := Nat.mul_le_mul_right _ h
  have h2 := Nat.div_le_div_right (c := r.num) h1
  omega

end Sys2Proof.Machine
end

