-- ==== Sys2Proof/WellFormed.lean ====
section
/-!
DEFINITION. WellFormed.lean: which commands the world can send. Index operands carry their bound in their type
(8 cadences, 12 lines, 4 capture lines, 4 groups); two operands need a check.
-/

namespace Sys2Proof

/-- A command the world can send. A frame that a port has seen the end of has at least the first byte of its
destination address, since that byte starts the reception (R3). A loss of TCLK is detected only after more than 1 µs
on the backup oscillator, counted at 8 ns a tick: at least 125 backup ticks (R113; assumption 13). -/
def Instr.wellFormed : Instr → Bool
  | .frameReceived _ bytes _ => decide (bytes ≠ [])
  | .clockLoss n _ => decide (125 ≤ n)
  | .coldReset => true
  | .warmReset => true
  | .linkUp _ => true
  | .linkDown _ => true
  | .classifyFrame _ => true
  | .transmitStart _ => true
  | .transmitEnd _ => true
  | .residenceRecordAgeOut _ => true
  | .timingCopyIntake => true
  | .sourceTimeout _ => true
  | .probeScheduleExpiry => true
  | .pendingProbeAgeOut _ => true
  | .stepTick _ => true
  | .holdoverExpired => true
  | .clockRestored => true
  | .cadenceEdge _ => true
  | .pulseEnd _ => true
  | .oneshotFire _ => true
  | .atTimeReached => true
  | .labelWordComplete _ => true
  | .captureInputChange _ => true
  | .captureAccept _ => true
  | .identify => true
  | .readStatus => true
  | .readTable => true
  | .writeTable => true
  | .switchBank => true
  | .stepTime => true
  | .setTime => true
  | .setTrim => true
  | .armOneshot => true
  | .disarmOneshot => true
  | .readCapture => true
  | .clearEvents => true
  | .restart => true
  | .holdoffEnd _ => true
  | .tick _ => true
  | .restoreQualificationStart => true
  | .restoreQualificationRestart => true
  | .badCommandRequest => true

end Sys2Proof
end

