-- ==== Sys2Proof/Tests/Slice0.lean ====
section
/-!
SUPPORT. Tests/Slice0.lean: the smoke test of WellFormed, the manual's worked figures, and for each statement of
Certificates/Slice0/Obligations.lean that has hypotheses a witness: concrete states and operands that meet them, at the
boundary values of its clauses. Expected values are the manual's own figures; the section is named at each.
-/

namespace Sys2Proof.Tests

open Sys2Proof Sys2Proof.Machine

/-! ### Well-formed commands -/

theorem test_wellFormed_refuses_empty_frame : (Instr.frameReceived .n [] false).wellFormed = false := by decide

theorem test_wellFormed_refuses_early_clock_loss :
    (Instr.clockLoss 124 { cap := #v[false, false, false, false], rxN := false, rxD := false }).wellFormed = false := by
  decide

theorem test_wellFormed_accepts_others :
    (Instr.clockLoss 125 { cap := #v[false, false, false, false], rxN := false, rxD := false }).wellFormed = true ∧
      (Instr.frameReceived .d [0] true).wellFormed = true ∧ Instr.coldReset.wellFormed = true := by
  decide

theorem test_no_word_spells_a_command : decodeTableWord 16 0 = none ∧ State.reset.withFetchWord 16 7 = State.reset :=
  ⟨rfl, rfl⟩

/-! ### Worked figures of the manual -/

/-- 3.8: the received checksum 0x3A5C becomes 0x2C56 when two words grow by 0x0006 and 0x0E00. -/
theorem test_udp_checksum_worked :
    updateChecksum 0x3A5C [0, 0, 0xC8, 0x00] [0, 6, 0xD6, 0x00] = 0x2C56 := by decide +kernel

/-- 6.1, worked figures: increments. -/
theorem test_increments_worked :
    trimFraction (-290) = 9964 ∧ trimFraction (-1822) = 62603 ∧ trimFraction 50000 = 1717987 ∧
      incrementOf (-100000) = 7 * 2 ^ 32 + 4291531322 ∧ incrementOf 0 = 8 * 2 ^ 32 := by decide

/-- 6.4, worked servo samples: samples 1 and 2, and P for θ = −37. -/
theorem test_servo_worked :
    integralAfter ServoCfg.reset 0 2500 = 4915000 ∧ adjustAfter ServoCfg.reset 0 2500 = -1822 ∧
      integralAfter ServoCfg.reset 4915000 2272 = 9381752 ∧ adjustAfter ServoCfg.reset 4915000 2272 = -1731 ∧
      proportional ServoCfg.reset (-37) = -25 := by decide

/-- 7.13, 29.97 Hz frames. -/
def frames : CadRec :=
  { mode := .continuous, num := 30000, den := 1001, phase := 0, shape := .pulse, width := 1000000, policy := .always }

/-- 7.13, 48 kHz word clock. -/
def wordClock : CadRec := { frames with num := 48000, den := 1, shape := .square, width := 8 }

theorem test_edges_worked :
    frames.edgeTime 2997 = 99999900000 ∧ frames.edgeTime 2998 = 100033266666 ∧
      frames.edgeTime 2999 = 100066633333 ∧ frames.firstAt (100000000000 + 1) = 2998 ∧
      wordClock.firstAt (100000000000 + 1) = 4800001 ∧ wordClock.firstAt 100000000000 = 4800000 ∧
      wordClock.endTime 4800001 = 100000031250 ∧ wordClock.edgeTime 4800002 = 100000041666 := by decide

/-- 10.11: nearest edges, a tie and a stamp before edge 0 among them. -/
theorem test_nearest_worked :
    frames.nearestEdge 100033266700 = 100033266666 ∧ frames.nearestEdge 100066633320 = 100066633333 ∧
      { frames with num := 25, den := 1 }.nearestEdge 20000000 = 0 ∧
      { frames with num := 25, den := 1, phase := 40000123 }.nearestEdge 5 = 40000123 := by decide

/-- 4.9: the ranking of four records, and the worst of them. -/
def heard (sender : Ident) (port : BitVec 16) (cls pref2 : BitVec 8) (src : Ident) (hops : BitVec 16) : SourceRec :=
  { sender := sender, portNo := port, tsIdent := src, pref1 := 128, cls := cls, accuracy := 33, variance := 20061,
    pref2 := pref2, hops := hops, civil := 0, civilValid := false, interval := 0, lastSeq := 0, count := 2,
    lastHeard := 0,
    st := .eligible, selected := false }

theorem test_ranking_worked :
    bestOf [heard 2 1 6 129 2 0, heard 1 1 6 128 1 0, heard 3 3 6 128 1 1, heard 3 4 7 128 2 1] =
        some (heard 1 1 6 128 1 0) ∧
      worstOf [heard 2 1 6 129 2 0, heard 1 1 6 128 1 0, heard 3 3 6 128 1 1, heard 3 4 7 128 2 1] =
        some (heard 3 4 7 128 2 1) ∧
      (heard 3 3 6 128 1 1).better (heard 2 1 6 129 2 0) = true := by decide

/-- 5.7 and 5.8: Mark differences, delay samples and offsets. -/
theorem test_exchange_worked :
    markDifference (5300 * 256) 0 (800 * 256) 0 = 1152000 ∧
      probeDifference (200000100 * 256) (200000000 * 256) (600 * 256) 0 = -500 * 256 ∧
      delaySample 1152000 (-500 * 256) = 2000 * 256 ∧ delaySample 511359 (-511362) = -2 ∧
      joinWindow (-2) [512000, 512001, 511998] = [512000, 512001, 511998] ∧
      delaySample 511359 (-510360) = 499 := by decide

/-- 7.1 (R121): widths brought into 8 to floor(P) − 8, here for floor(P) of 100. -/
theorem test_width_clamped : fitWidth 100 0 = 8 ∧ fitWidth 100 92 = 92 ∧ fitWidth 100 93 = 92 := by decide

/-- 9.9: the word of edge 2,998, its fields and its completion at tick count 24,701. -/
theorem test_label_word_worked :
    wordTicks { enable := true, cadence := 0, delay := 125, period := 256, edge := .rising } = 24701 ∧
      composeBits
          { State.reset with
            servo := { Servo.reset with locked := true, traced := true }
            sources :=
              State.reset.sources.set 0
                (some { heard 1 1 6 128 1 0 with civil := 37, civilValid := true, selected := true }) }
          0 2998 100033266666 false =
        BitVec.ofNat 96 (137 * 2 ^ 48 + 2998 * 2 ^ 8 + 0b00011001) := by decide +kernel

/-! ### States for the witnesses -/

/-- A part with a station address and both links up. -/
def site : State :=
  { State.reset with
    station := 0xA1A2A3A4A5A6, portN := { PortState.reset with link := .up }
    portD := { PortState.reset with link := .up } }

/-- A tick at which nothing moves outside. -/
def quiet : TickIn := { cap := #v[false, false, false, false], rxN := false, rxD := false }

/-- A request of a manager, as received on Port N. -/
def request (code : Nat) (body : List Byte) : Request :=
  { bytes := mgmtFrame site.station 0x0B0000000001 none 1 7 code 0 body ++ [0, 0, 0, 0], port := .n,
    src := 0x0B0000000001, tci := none }

/-- The part with one request waiting. -/
def asked (code : Nat) (body : List Byte) : State := { site with requests := [request code body] }

/-- What it takes for the part to carry the request out. -/
abbrev willServe (s : State) (c : Command) (code : Nat) (body : List Byte) : Prop :=
  s.restart = .idle ∧ s.requests = [request code body] ∧ commandOf (request code body).code = some c ∧
    c.bodySize ≤ (request code body).bodyLen ∧ (request code body).bodyLen ≤ (request code body).data.length - 8 ∧
    permitted s c (request code body).src (request code body).body = true ∧ (request code body).body = body

/-- The witnesses of `willServe` are witnesses of the predicate that the statements use. -/
theorem wit_carriesOut {s : State} {c : Command} {code : Nat} {body : List Byte} (h : willServe s c code body) :
    s.carriesOut c (request code body) [] :=
  ⟨h.1, h.2.1, h.2.2.1, h.2.2.2.1, h.2.2.2.2.1, h.2.2.2.2.2.1⟩

/-- A queued frame. -/
def queued (o : Origin) : EgressEntry := { bytes := List.replicate 60 0, origin := o }

/-- Port N with so many frames in its two queues. -/
def loaded (t o : Nat) : State :=
  { site with
    portN :=
      { site.portN with
        timingQ := List.replicate t (queued .notification), ordinaryQ := List.replicate o (queued .notification) } }

/-- A timing message in an L2 frame at position 14, its header's fields given, with a body. -/
def message (kind len flags seq : Nat) (sender : Ident) (body : List Byte) : List Byte :=
  addrBytes 0x010203040506 ++ addrBytes 0x0A0B0C0D0E0F ++ [0x88, 0xF7] ++
    ([BitVec.ofNat 8 kind, 2] ++ beBytes 2 len ++ [0, 0] ++ beBytes 2 flags ++ beBytes 8 0 ++
      beBytes 8 sender.toNat ++ beBytes 2 1 ++ beBytes 2 seq) ++ body

/-- A copy of such a message, stamped at 1,000 s. -/
def copyOf (content : List Byte) : Copy :=
  { bytes := content ++ [0, 0, 0, 0], stamp := { time := 1000 * 10 ^ 9 * 256, elapsed := 5000 }, carrier := .l2,
    hdrPos := 14, vlan := none }

/-- A source table with these records in its first slots. -/
def withSources (rs : List SourceRec) (s : State) : State :=
  { s with sources := #v[rs[0]?, rs[1]?, rs[2]?, rs[3]?, rs[4]?, rs[5]?, rs[6]?, rs[7]?] }

/-- A selected source. -/
def chosen : SourceRec := { heard 1 1 6 128 1 0 with selected := true }

/-! ### Small tests of one step -/

/-- The state a step leads to, for tests that look at one field. -/
def after (c : Instr) (s : State) : State :=
  match exec c s with
  | .next t => t
  | _ => s

/-- 6.1: from a cold reset one tick adds 8 ns, and 2,048 units to the elapsed counter. -/
theorem test_tick : (after (.tick quiet) site).time.ns = 8 ∧ (after (.tick quiet) site).elapsed = 2048 := by
  decide +kernel

/-- 6.5: 125 backup ticks of 8 ns are 1,000 ns. -/
theorem test_clock_loss : (after (.clockLoss 125 quiet) site).time.ns = 1000 := by decide +kernel

/-- 11.6: a response without a body is a frame of 60 bytes with status BAD_COMMAND at position 19. -/
theorem test_bad_command :
    ((after .badCommandRequest (asked 99 [])).portN.ordinaryQ.map fun e => (e.bytes.length, byteAt e.bytes 19)) =
      [(60, 2)] := by decide +kernel

/-- 1.1: a port that goes DOWN loses its queues. -/
theorem test_link_down : (after (.linkDown .n) (loaded 3 3)).portN = PortState.reset := by decide +kernel

/-- 6.6: a trim is kept through a warm reset that is due and not through a cold one. -/
theorem test_resets_and_trim :
    (after .warmReset { site with restart := .due, servo := { Servo.reset with a := 7 } }).servo.a = 7 ∧
      (after .coldReset { site with servo := { Servo.reset with a := 7 } }).servo.a = 0 := by decide +kernel

/-! ### Witnesses: the machine, the invariants -/

theorem wit_StepRunsFrontCommand :
    { site with pending := [.identify] }.pending = .identify :: [] ∧ site.pending = [] := ⟨rfl, rfl⟩

theorem wit_CommandsKeepQueueStationAndPins :
    (∃ t, exec (.tick quiet) site = .next t) ∧ (∃ t, exec .atTimeReached site = .next t) ∧
      (∀ inp, Instr.atTimeReached ≠ .tick inp) ∧ (∀ inp, Instr.atTimeReached ≠ .stepTick inp) ∧
      (∀ n inp, Instr.atTimeReached ≠ .clockLoss n inp) ∧ Instr.atTimeReached ≠ .coldReset :=
  ⟨⟨_, rfl⟩, ⟨_, rfl⟩, nofun, nofun, nofun, nofun⟩

/-- A part that is locked to a source, with a word, a switch, and records under way. -/
def busy : State :=
  { withSources [chosen] site with
    pending := [.tick quiet]
    servo :=
      { st := .track, a := -50000, integ := 50000 * 65536, locked := true, lockCount := 7, outlierCount := 3,
        lockHeld := true, history := List.replicate 16 (-50000), holdStart := none, traced := true }
    portN := { site.portN with timingQ := List.replicate 8 (queued .notification) }
    time := { sec := 2 ^ 48 - 1, ns := 999999999, frac := 0 }
    requests := List.replicate 4 (request 1 [])
    banks := site.banks.set 0 { Bank.reset with cad := Bank.reset.cad.set 0 frames }
    cad := site.cad.set 0 { st := .running 5 (frames.edgeTime 5), pulse := none, last := none, endedNow := false }
    switch := some { target := 1, trigger := .atEdge 0, due := false, dueTick := false } }

theorem wit_step_invariants_time_ports_tables :
    busy.timeOk ∧ busy.requestsOk ∧ busy.residenceOk ∧ busy.exchangeOk ∧ busy.countsOk ∧
      busy.adjustOk ∧ busy.lockOk ∧ busy.tracedOk := by decide +kernel

theorem wit_step_invariants_ports : busy.portsOk := by decide +kernel

theorem wit_step_invariants_sources_outputs :
    busy.namesOk ∧ busy.oneSelected ∧ busy.bestSelected ∧ busy.servoSourceOk ∧ busy.switchOk ∧ busy.ringsOk ∧
      busy.linesOk ∧ busy.groupsOk ∧ busy.clock.countOk = true ∧ busy.servoCfg.legal := by decide +kernel

theorem wit_step_invariants_records : busy.recordsOk ∧ busy.cadencesOk := by decide +kernel

theorem wit_step_invariants_written : busy.classifyOk ∧ busy.smallRecordsOk := by decide +kernel

theorem wit_step_invariants_next : ∃ t, step busy = .next t := ⟨_, rfl⟩

/-! ### Witnesses: frame path -/

theorem wit_EgressQueuesFillAndEmpty_arrival :
    ((loaded 7 31).port .n).link = .up ∧ ((loaded 7 31).port .n).timingQ.length < 8 ∧
      8 ≤ ((loaded 8 32).port .n).timingQ.length ∧ ((loaded 7 31).port .n).ordinaryQ.length < 32 ∧
      32 ≤ ((loaded 8 32).port .n).ordinaryQ.length ∧ (State.reset.port .d).link = .down := by decide

/-- Group 0 with a destination, LOCK_LOST enabled. -/
def watched (holdoff : Nat) (dest : Option Addr) (st : GroupState) : State :=
  { loaded 0 31 with
    notifyCfg := site.notifyCfg.set 0 { dest := dest, egress := .n, holdoff := holdoff, enable := 2 }
    groups := site.groups.set 0 { pending := 1, st := st, reported := false } }

theorem wit_RaisedEventIsPending :
    (watched 0 none .idle).isPending .lockGained = true ∧ (watched 0 none .idle).isPending .lockLost = false ∧
      (watched 0 none .idle).isEnabled .clockLoss = false := by decide

theorem wit_EnabledEventNotifies :
    (watched 5 (some 9) .idle).isPending .lockLost = false ∧ (watched 5 (some 9) .idle).isEnabled .lockLost = true ∧
      (watched 5 (some 9) .idle).groups[Event.lockLost.group].st = .idle ∧
      (watched 5 none .idle).notifyCfg[Event.lockLost.group].dest = none ∧
      ((watched 5 (some 9) .idle).port .n).ordinaryQ.length = 31 ∧ (watched 5 (some 9) .idle).timeOk ∧
      (watched 5 (some 9) (.holdoff 0 5)).groups[Event.lockLost.group].st = .holdoff 0 5 := by decide

/-- Group 0 one unit past its holdoff of 5 ms. -/
def heldOff (reported : Bool) : State :=
  { watched 5 (some 9) .idle with
    elapsed := 5 * 256000000 + 1
    groups := site.groups.set 0 { pending := 1, st := .holdoff 0 5, reported := reported } }

theorem wit_HoldoffEndsAndEventsClear :
    (heldOff true).groups[(0 : Fin 4)].st = .holdoff 0 5 ∧ 5 * 256000000 < ((heldOff true).elapsed - 0).toNat ∧
      (heldOff true).groups[(0 : Fin 4)].reported = true ∧ (heldOff true).notifyCfg[(0 : Fin 4)].dest = some 9 ∧
      ((heldOff true).port .n).ordinaryQ.length < 32 ∧ (heldOff false).groups[(0 : Fin 4)].reported = false := by
  decide

theorem wit_HoldoffEndsAndEventsClear_clear :
    willServe (asked 12 [3, 0xFF]) .clearEvents 12 [3, 0xFF] ∧ willServe (asked 12 [4, 1]) .clearEvents 12 [4,
      1] := by
  decide +kernel

theorem wit_LinkAndTransmitterChanges :
    (State.reset.port .n).link = .down ∧ ((loaded 1 1).port .n).link = .up ∧
      (∀ e ∈ ((loaded 1 1).port .n).timingQ ++ ((loaded 1 1).port .n).ordinaryQ, e.origin ≠ .response true) ∧
      ∃ e ∈ [queued (.response true)], e.origin = .response true := by
  refine ⟨rfl, rfl, ?_, ⟨_, List.mem_singleton.mpr rfl, rfl⟩⟩
  decide

theorem wit_FrameReceptionChecks_least :
    64 ≤ (List.replicate 60 (0 : Byte) ++ fcsOf (List.replicate 60 0)).length ∧
      fcsCorrect (List.replicate 60 0 ++ fcsOf (List.replicate 60 0)) = true ∧
      (List.replicate 63 (0 : Byte)).length < 64 := by
  decide +kernel

theorem wit_FrameReceptionChecks_state :
    ∃ s : State, (s.port .n).link = .up ∧ (s.port .n).receiving = some { time := -3, elapsed := 0 } ∧
      (s.port .d).link = .up ∧ (s.port .d).receiving = none :=
  ⟨{ site with portN := { site.portN with receiving := some { time := -3, elapsed := 0 } } }, rfl, rfl, rfl, rfl⟩

/-- A management frame with `data` after its Ethernet header, as received. -/
def managing (data : List Byte) : List Byte :=
  addrBytes (BitVec.allOnes 48) ++ addrBytes 7 ++ [0x9A, 0x3C] ++ data ++ [0, 0, 0, 0]

theorem wit_ClassifierDecides_management :
    (factsOf (contentOf (managing [1, 1, 0, 0, 1, 0, 0, 0]))).dst = 0xFFFFFFFFFFFF#48 ∧
      (factsOf (contentOf (managing [1, 1, 0, 0, 1, 0, 0, 0]))).etherType = 0x9A3C#16 ∧
      ((contentOf (managing [1, 1, 0, 0, 1, 0, 0, 0])).drop 14).length = 8 ∧
      ((contentOf (managing [1, 1, 0, 0, 1, 0, 0])).drop 14).length = 7 ∧
      { site with requests := List.replicate 3 (request 1 []) }.requests.length < 4 ∧
      4 ≤ { site with requests := List.replicate 4 (request 1 []) }.requests.length := by decide +kernel

/-- An entry for one-step and two-step Marks and Follows under carrier L2. -/
def marksEntry : ClassEntry :=
  { ClassEntry.empty with valid := true, carrier := .l2, kinds := some 6, action := .copyCorrect, cls := .timing }

theorem wit_ClassifierDecides_entries :
    ¬ (((factsOf (message 2 38 0 1 1 (List.replicate 10 0))).dst = site.station ∨
        (factsOf (message 2 38 0 1 1 (List.replicate 10 0))).dst = 0xFFFFFFFFFFFF#48) ∧
      (factsOf (message 2 38 0 1 1 (List.replicate 10 0))).etherType = 0x9A3C#16) ∧
      marksEntry.isMatch .n (message 2 38 0 1 1 (List.replicate 10 0))
        (factsOf (message 2 38 0 1 1 (List.replicate 10 0))) = true ∧
      ClassEntry.empty.isMatch .n (message 2 38 0 1 1 (List.replicate 10 0))
        (factsOf (message 2 38 0 1 1 (List.replicate 10 0))) = false := by decide +kernel

/-- An IPv4/UDP frame with a timing header of kind 4 in its payload of 38 bytes, its total length given. -/
def inUdp (total : Nat) : List Byte :=
  addrBytes 1 ++ addrBytes 2 ++ [0x08, 0x00] ++ [0x45, 0] ++ beBytes 2 total ++ [0, 0, 0x40, 0, 64, 17, 0, 0] ++
    List.replicate 8 0 ++ beBytes 2 319 ++ beBytes 2 320 ++ beBytes 2 46 ++ [0, 0] ++ [4, 2] ++ beBytes 2 38 ++
    List.replicate 34 0

/-- R21 at its bounds: a total length of the header, 8 and the payload has the layers, one byte less has not; and an
entry of carrier UDP4 for port 320 and kind 4 matches the frame. -/
theorem wit_EntriesMatchByTheirFields :
    (factsOf (inUdp 66)).udp = some { dstPort := 320, udpPos := 34, payPos := 42, payLen := 38 } ∧
      (factsOf (inUdp 65)).udp = none ∧ (factsOf (inUdp 67)).udp = none ∧
      headerPos (inUdp 66) (factsOf (inUdp 66)) .udp4 = some 42 ∧
      { ClassEntry.empty with valid := true, carrier := .udp4, udpPort := some 320, kinds := some 8 }.isMatch .d
        (inUdp 66) (factsOf (inUdp 66)) = true := by decide +kernel

/-- R20: behind two stacked tags there is no L2 position, though the bytes at position 18 would parse. -/
theorem test_stacked_tags :
    let content := addrBytes 1 ++ addrBytes 2 ++ [0x81, 0, 0, 5, 0x81, 0, 2, 2] ++ beBytes 2 38 ++ List.replicate 40 0
    headerParses content 18 (content.length - 18) = true ∧ headerPos content (factsOf content) .l2 = none := by
  decide +kernel

theorem wit_ActionsGiveDispositions :
    headerPos (message 2 38 0 1 1 (List.replicate 10 0)) (factsOf (message 2 38 0 1 1 (List.replicate 10 0))) .l2 =
        some 14 ∧
      headerPos (message 2 38 0 1 1 []) (factsOf (message 2 38 0 1 1 [])) .l2 = none := by decide +kernel

theorem wit_EgressQueuesFillAndEmpty :
    ((loaded 1 1).port .n).link = .up ∧ ((loaded 0 1).port .n).link = .up ∧ ((loaded 0 1).port .n).tx = none ∧
      (∀ i m, (queued .notification).origin ≠ .forwarded i (some m)) ∧ (∀ q,
        (queued .notification).origin ≠ .probe q) ∧
      (State.reset.port .n).link = .down ∧ ((loaded 1 1).port .n).tx = none ∧
      ((loaded 1 1).port .n).timingQ = queued .notification :: [] ∧
      ((loaded 0 1).port .n).timingQ = [] ∧ ((loaded 0 1).port .n).ordinaryQ = queued .notification :: [] :=
  ⟨rfl, rfl, rfl, nofun, nofun, rfl, rfl, rfl, rfl, rfl⟩

/-- A part with a departure of Port N or of Port D that waits for its egress stamp. -/
def departed (p : Port) (e : EgressEntry) : State :=
  { site with departing := [{ port := p, entry := e, latency := 0, sending := true }] }

theorem wit_ProbeDepartureIsRecorded :
    (loaded 0 0).portN.link = .up ∧ (loaded 0 0).portN.tx = none ∧
      { (loaded 0 0).portN with timingQ := [queued (.probe 3)] }.timingQ = queued (.probe 3) :: [] ∧
      (departed .n (queued (.probe 3))).departing =
        [{ port := .n, entry := queued (.probe 3), latency := 0, sending := true }] ∧
      (departed .n (queued (.probe 3))).steps = [] ∧
      (departed .n (queued (.probe 3))).clock = .normal ∧ site.exch.boundary = none ∧
      ((0 + 16777216#64 - 16777216#64).toNat = 0) ∧
      1 ≤ (0 + 16777216#64 - 16777215#64).toNat ∧ (0 + 16777216#64 - (16777216#64 + 2 ^ 63)).toNat ≤ 2 ^ 63 ∧
      2 ^ 63 < (0 + 16777216#64 - 16777217#64).toNat := by decide +kernel

/-- R10: the tick after the departure reads the stamp: 8 ns and the elapsed reading 2,048 from a cold reset. -/
theorem test_probe_stamp :
    (after (.tick quiet) (departed .n (queued (.probe 3)))).exch.probes =
      [{ seq := 3, t3 := 8 * 256, sent := 2048 }] := by
  decide +kernel

theorem wit_CorrectorActsByKind :
    let at_ := fun content => readHdr content 14
    (at_ (message 2 37 0 1 1 [])).len < 38 ∧ (at_ (message 1 46 0 1 1 [])).kind = 1 ∧
      38 ≤ (at_ (message 2 38 1 1 1 [])).len ∧ (at_ (message 2 38 1 1 1 [])).twoStep = true ∧
      (at_ (message 2 38 0 1 1 [])).twoStep = false ∧ (at_ (message 4 38 0 1 1 [])).kind = 4 ∧
      (at_ (message 3 38 0 1 1 [])).kind = 3 := by decide +kernel

/-- The entry of a marked frame. -/
def marked (content : List Byte) : EgressEntry :=
  { bytes := content
    origin :=
      .forwarded { time := 0, elapsed := 0 } (some { carrier := .l2, hdrPos := 14, udpPos := none }) }

theorem wit_CorrectorActsByKind_state :
    let s := departed .d (marked (message 3 38 0 1 1 []))
    s.departing = [{ port := .d, entry := marked (message 3 38 0 1 1 []), latency := 0, sending := true }] ∧
      s.clock = .normal ∧ (s.port .d).link = .up ∧ (s.port .d).tx = none ∧
      { s.port .d with ordinaryQ := [marked []] }.ordinaryQ = marked [] :: [] ∧ (s.port .d).timingQ = [] := by
  decide +kernel

/-- R46: D's Mark 1 and N's Follow 1 depart between two ticks, in either order, a record of Mark 1 toward N being held:
after D's Mark that record is gone and the Follow misses; before it the Follow takes the record. -/
def crossing (first second : Port × List Byte) : State :=
  let gone (x : Port × List Byte) : Departure := { port := x.1, entry := marked x.2, latency := 0, sending := true }
  { site with
    residence :=
      [{ sender := 1, portNo := 1, seq := 1, domain := 0, dir := .n, residence := 100, created := 0 }]
    departing := [gone first, gone second] }

theorem test_departure_order :
    let mark : Port × List Byte := (.d, message 2 38 1 1 1 [])
    let follow : Port × List Byte := (.n, message 3 38 0 1 1 [])
    let a := after (.tick quiet) (crossing mark follow)
    let b := after (.tick quiet) (crossing follow mark)
    a.residence.map ResRec.dir = [.d] ∧ a.isPending .residenceMiss = true ∧
      b.residence.map ResRec.dir = [.d] ∧ b.isPending .residenceMiss = false := by decide +kernel

/-- The clause of R46 over two departures: their kinds, lengths and keys. -/
theorem wit_CorrectorActsByKind_order :
    let ha := readHdr (message 2 38 1 1 1 []) 14
    let hb := readHdr (message 3 38 0 1 1 []) 14
    38 ≤ ha.len ∧ 38 ≤ hb.len ∧ ha.kind = 2 ∧ ha.twoStep = true ∧ hb.kind = 3 ∧ ha.sender = hb.sender ∧
      ha.portNo = hb.portNo ∧ ha.seq = hb.seq ∧ ha.domain = hb.domain ∧ Port.d ≠ Port.n := by decide +kernel

/-- R11, R48: a frame whose bytes the corrector has yet to give is still being sent, and waits for them. -/
def answering : State :=
  { departed .d (marked (message 3 38 0 1 1 [])) with
    portD := { site.portD with tx := some { wire := none, origin := (marked []).origin } } }

theorem test_transmit_end_waits :
    after (.transmitEnd .d) answering = answering ∧
      ((after (.tick quiet) answering).portD.tx.bind TxFrame.wire).isSome = true ∧
      (after (.transmitEnd .d) (after (.tick quiet) answering)).portD.tx = none := by decide +kernel

theorem wit_PortsStayLegal : answering.portsOk := by decide +kernel

/-- A residence record of a sequence number. -/
def resRec (seq : BitVec 16) : ResRec :=
  { sender := 1, portNo := 1, seq := seq, domain := 0, dir := .d, residence := 100, created := 0 }

theorem wit_CorrectorActsByKind_records :
    ([resRec 1, resRec 2].find? fun y => y.sameKey (resRec 2) && y.dir == .d) = some (resRec 2) ∧
      ∀ y ∈ [resRec 1], ¬ (y.sameKey (resRec 2) = true ∧ y.dir = .d) := by decide

theorem wit_CorrectionChangesOnlyItsFields :
    let mark : CorrMark := { carrier := .udp4, hdrPos := 42, udpPos := some 34 }
    mark.hdrPos + 16 ≤ (List.replicate 58 (0 : Byte)).length ∧ (∀ u ∈ mark.udpPos, u + 8 ≤ mark.hdrPos) ∧
      (65535 : Nat) < 65536 := by decide

theorem wit_RecordsJoinAndLeave :
    (∀ x ∈ [resRec 1, resRec 2], x.sameKey (resRec 3) = false) ∧
      (∀ x ∈ List.replicate 8 (resRec 1), x.sameKey (resRec 3) = false) ∧
      (resRec 2).sameKey (resRec 2) = true ∧ (∀ y ∈ [resRec 1] ++ [resRec 4], y.sameKey (resRec 2) = false) := by
  decide

theorem wit_RecordsJoinAndLeave_aged :
    let s (e : Elapsed) : State :=
      { site with
        elapsed := e, residence := [resRec 1]
        exch := { Exchange.reset with probes := [{ seq := 1, t3 := 0, sent := 0 }] } }
    (s 256000000001).residence[(0 : Fin 8).val]? = some (resRec 1) ∧
      256000000000 < ((s 256000000001).elapsed - (resRec 1).created).toNat ∧
      ((s 256000000000).elapsed - (resRec 1).created).toNat ≤ 256000000000 ∧
      ((s (2 ^ 63 - 1)).elapsed - (resRec 1).created).toNat < 2 ^ 63 ∧
      (s 0).exch.probes[(0 : Fin 4).val]? = some ⟨1, 0, 0⟩ := by
  decide +kernel

/-! ### Witnesses: time sources and exchanges -/

theorem wit_RankingIsTotal :
    worstOf [heard 1 1 6 128 1 0, heard 2 1 6 129 2 0] = some (heard 2 1 6 129 2 0) ∧
      [heard 1 1 6 128 1 0, heard 2 1 6 129 2 0].Pairwise fun x y => x.sender ≠ y.sender ∨ x.portNo ≠ y.portNo := by
  decide

/-- A Beacon of sender 1 with sequence number 9 and hops 254. -/
def beacon : List Byte :=
  message 1 46 0 9 1 (beBytes 8 1 ++ [128, 6, 33] ++ beBytes 2 20061 ++ [128] ++ beBytes 2 254 ++ [0, 0])

theorem wit_BeaconsMakeAndRefreshRecords :
    let h := readHdr (contentOf (copyOf beacon).bytes) 14
    let b := recordOfBeacon (contentOf (copyOf beacon).bytes) 14 h (copyOf beacon).stamp
    h.kind = 1 ∧ h.len = 46 ∧ h.domain = site.servoCfg.domain ∧ b.hops.toNat < 255 ∧ h.sender ≠ site.identity ∧
      h.sender = chosen.sender ∧ h.portNo = chosen.portNo ∧ chosen.lastSeq ≠ h.seq ∧ chosen.st = .eligible ∧
      b.rankKey = { chosen with hops := 254 }.rankKey ∧ b.civil = chosen.civil ∧
      site.sources[(0 : Fin 8)] = none ∧ { chosen with st := .qualifying, count := 1 }.st = .qualifying := by
  decide +kernel

/-- Seven unselected records and the selected one; the worst of the unselected stands in slot 6. -/
def fullTable : State :=
  withSources
    [chosen, heard 2 1 6 129 2 0, heard 2 2 6 129 2 0, heard 2 3 6 129 2 0, heard 2 4 6 129 2 0, heard 2 5 6 129 2 0,
      heard 2 9 6 129 2 0, heard 2 6 6 129 2 0] site

/-- R60: the Beacon of sender 3 meets the full table, in which it ranks better than the worst unselected record, or in
another class worse; R57: hops of 255, a repeat; R58: a changed civil offset. -/
theorem wit_BeaconsMakeAndRefreshRecords_full :
    let b (cls : BitVec 8) : SourceRec := heard 3 1 cls 128 3 0
    (∀ j : Fin 8, fullTable.sources[j] ≠ none) ∧ fullTable.sources[(6 : Fin 8)] = some (heard 2 9 6 129 2 0) ∧
      (∀ j : Fin 8, ∀ a ∈ fullTable.sources[j], j ≠ 6 →
        ¬ (a.sender = 2 ∧ a.portNo = 9) ∧ (a.selected = false → a.better (heard 2 9 6 129 2 0) = true)) ∧
      (∀ j : Fin 8, ∀ a ∈ fullTable.sources[j], ¬ (a.sender = 3 ∧ a.portNo = 1)) ∧
      (b 6).better (heard 2 9 6 129 2 0) = true ∧ (b 7).better (heard 2 9 6 129 2 0) = false ∧
      255 ≤ ({ b 6 with hops := 255 } : SourceRec).hops.toNat ∧ (b 6).lastSeq = 0 ∧
      ¬ (({ chosen with civil := 1 } : SourceRec).civil = chosen.civil) := by
  decide +kernel

theorem wit_RerunSelectsBestSource :
    (withSources [chosen] site).namesOk ∧ (withSources [chosen] site).bestEligible = some chosen ∧
      site.namesOk ∧ site.bestEligible = none := by decide +kernel

theorem wit_RecordsJoinAndLeave_source :
    let s (e : Elapsed) (sel : Bool) : State :=
      { withSources [{ chosen with interval := -8, selected := sel }] site with elapsed := e }
    (s 6000000001 true).sources[(0 : Fin 8)] = some { chosen with interval := -8 } ∧
      3 * (2000000000 * 2 ^ ((max (-7) (min 7 (-8)) : Int) + 7).toNat) < ((s 6000000001 true).elapsed - 0).toNat ∧
      ((s 6000000000 false).elapsed - 0).toNat ≤ 3 * (2000000000 * 2 ^ ((max (-7) (min 7 (-8)) : Int) + 7).toNat) := by
  decide

/-- A part whose selected source is sender 1, with a delay window. -/
def measuring (w : List Int) (c : Copy) : State :=
  { withSources [chosen] site with copies := [c], exch := { Exchange.reset with window := w, mark := some ⟨1000, 4⟩ } }

/-- A one-step Mark of sender 1, its precise origin at 999 s and 999,999,999 ns. -/
def oneStep : Copy := copyOf (message 2 38 0 9 1 (beBytes 6 999 ++ beBytes 4 999999999))

theorem wit_MarkDifferenceGivesOffset :
    let h := readHdr (contentOf oneStep.bytes) 14
    h.len = 38 ∧ h.kind = 2 ∧ h.twoStep = false ∧ fieldAt (contentOf oneStep.bytes) 48 4 < 10 ^ 9 ∧
      (measuring [] oneStep).selectedName = some (h.sender, h.portNo) ∧
      (measuring [5, 6] oneStep).exch.mark.map MarkDiff.seq ≠ some h.seq ∧
      (measuring [5, 6] oneStep).exch.boundary = none ∧ (readHdr (message 3 38 0 9 1 []) 14).kind = 3 := by
  decide +kernel

/-- The Follow of sender 1 that matches a slot held for its Mark 9 (R75). -/
def follow : Copy := copyOf (message 3 38 0 9 1 (beBytes 6 999 ++ beBytes 4 999999999))

/-- The slot for Mark 9 of sender 1. -/
def markNine : PendingMark := { sender := 1, portNo := 1, seq := 9, t2 := 1000 * 10 ^ 9 * 256, corr := 0 }

theorem wit_MarkDifferenceGivesOffset_follow :
    let h := readHdr (contentOf follow.bytes) 14
    let s : State :=
      { measuring [5, 6] follow with exch := { Exchange.reset with window := [5, 6], slot := some markNine } }
    s.copies = follow :: [] ∧ h.len = 38 ∧ h.kind = 3 ∧ h.domain = s.servoCfg.domain ∧
      s.selectedName = some (h.sender, h.portNo) ∧ fieldAt (contentOf follow.bytes) 48 4 < 10 ^ 9 ∧
      s.exch.slot = some markNine ∧ markNine.sender = h.sender ∧ markNine.portNo = h.portNo ∧
      markNine.seq = h.seq := by
  decide +kernel

/-- A two-step Mark of sender 1. -/
def twoStep : Copy := copyOf (message 2 38 1 9 1 (List.replicate 10 0))

/-- R74: its operands; the slot that holds it already; a stamp one unit before the boundary; a WAITING schedule. -/
theorem wit_TwoStepMarkFillsSlot :
    let h := readHdr (contentOf twoStep.bytes) 14
    let s : State := measuring [] twoStep
    s.copies = twoStep :: [] ∧ h.kind = 2 ∧ h.len = 38 ∧ h.domain = s.servoCfg.domain ∧ h.twoStep = true ∧
      s.selectedName = some (h.sender, h.portNo) ∧ s.exch.slot = none ∧ s.exch.boundary = none ∧
      s.exch.sched = .stopped ∧ { s.exch with sched := .waiting 0 0 }.sched = .waiting 0 0 ∧
      markNine.sender = h.sender ∧ markNine.portNo = h.portNo ∧ markNine.seq = h.seq ∧
      ((5001 : Elapsed) - twoStep.stamp.elapsed).toNat = 1 ∧ twoStep.carrier ≠ .udp4 ∧
      templateOf twoStep =
        { station := 0x0A0B0C0D0E0F, tci := none, net := .l2 0x88F7 } := by
  decide +kernel

/-- A Probe Reply of sender 1 to the part's Probe 9, t4 at 1,000 s. -/
def reply : Copy :=
  copyOf (message 5 48 0 9 1 (beBytes 6 1000 ++ beBytes 4 0 ++ beBytes 8 site.identity.toNat ++ beBytes 2 1))

theorem wit_ReplyGivesDelaySample :
    let h := readHdr (contentOf reply.bytes) 14
    h.kind = 5 ∧ h.len = 48 ∧ (measuring [] reply).selectedName = some (h.sender, h.portNo) ∧
      BitVec.ofNat 64 (fieldAt (contentOf reply.bytes) 52 8) = (measuring [] reply).identity ∧
      fieldAt (contentOf reply.bytes) 60 2 = 1 ∧ h.seq = 9 ∧ ((1000 : Int) + (-1001)).fdiv 2 < 0 ∧
      0 ≤ ((1000 : Int) + (-1000)).fdiv 2 ∧ (List.replicate 8 (0 : Int)).length = 8 := by decide +kernel

/-- R71 to R75, R82: messages that are not used. A wrong domain, kind 6, a length one short, another source, a repeat, a
stamp one unit before the boundary, invalid nanoseconds, an empty slot, another requester, no probe of the number. -/
theorem wit_UnusedMessagesAreIgnored :
    let h := readHdr (contentOf oneStep.bytes) 14
    let bad := copyOf (message 2 38 0 9 1 (beBytes 6 999 ++ beBytes 4 1000000000))
    { h with domain := 1 }.domain ≠ site.servoCfg.domain ∧ 5 < { h with kind := 6 }.kind ∧
      (readHdr (message 2 37 0 9 1 []) 14).len < 38 ∧ (readHdr (message 5 47 0 9 1 []) 14).len < 48 ∧
      site.selectedName ≠ some (h.sender, h.portNo) ∧ h.twoStep = false ∧
      (some (⟨1000, 9⟩ : MarkDiff)).map MarkDiff.seq = some h.seq ∧
      ((5001 : Elapsed) - oneStep.stamp.elapsed).toNat = 1 ∧
      10 ^ 9 ≤ fieldAt (contentOf bad.bytes) (bad.hdrPos + 34) 4 ∧ (measuring [] follow).exch.slot = none ∧
      BitVec.ofNat 64 (fieldAt (contentOf reply.bytes) 52 8) ≠ ({ site with station := 0 } : State).identity ∧
      (measuring [] reply).exch.probes = [] := by
  decide +kernel

/-- R72: the Follow that matches the slot and the Reply that matches a probe, with 10^9 ns or with no Mark
difference. -/
theorem wit_UnusedMessagesAreIgnored_spent :
    let f := copyOf (message 3 38 0 9 1 (beBytes 6 999 ++ beBytes 4 1000000000))
    let h := readHdr (contentOf f.bytes) 14
    let s : State :=
      { measuring [] f with
        exch := { Exchange.reset with slot := some markNine, probes := [{ seq := 9, t3 := 0, sent := 0 }] } }
    s.copies = f :: [] ∧ h.kind = 3 ∧ h.len = 38 ∧ h.domain = s.servoCfg.domain ∧
      s.selectedName = some (h.sender, h.portNo) ∧ s.exch.slot = some markNine ∧ markNine.sender = h.sender ∧
      markNine.portNo = h.portNo ∧ markNine.seq = h.seq ∧ 10 ^ 9 ≤ fieldAt (contentOf f.bytes) (f.hdrPos + 34) 4 ∧
      s.exch.mark = none ∧ (∃ q ∈ s.exch.probes, q.seq = (readHdr (contentOf reply.bytes) 14).seq) := by
  decide +kernel

theorem wit_ProbeScheduleExpires :
    ((7 : Elapsed) - 7).toNat < 2 ^ 63 ∧ ((2 ^ 63 - 1 : Elapsed) - 0).toNat < 2 ^ 63 ∧
      2 ^ 63 ≤ ((6 : Elapsed) - 7).toNat ∧ site.exch.sched = .stopped ∧
      { site.exch with sched := .waiting 7 0 }.sched = .waiting 7 0 ∧
      ∃ s : State, s.exch.sched = .timed 0 0 ∧ s.exch.template = some { station := 1, tci := none, net := .l2 0x88F7 } :=
  ⟨by decide +kernel, by decide +kernel, by decide +kernel, rfl, rfl,
    { site with
      exch :=
        { Exchange.reset with
          sched := .timed 0 0, template := some { station := 1, tci := none, net := .l2 0x88F7 } } }, rfl, rfl⟩

/-- 5.3, layers of a Probe: tagged under UDP4 it has 84 bytes, its UDP length field 46 at position 42. -/
theorem test_probe_frame :
    let b := probeFrame site { station := 1, tci := some 5, net := .udp4 9 0 319 }
    b.length = 84 ∧ fieldAt b 42 2 = 46 ∧ byteAt b 46 = 4#8 ∧ onesSum (slice b 18 20) = 65535 := by decide +kernel

/-! ### Witnesses: counters, servo, clock monitor -/

theorem wit_TickAdvancesCounters :
    site.steps = [] ∧ site.departing = [] ∧ site.portN.link = .up ∧
      { quiet with rxN := true }.rxN = true ∧
      (site.capRec.set 0 { CapRec.reset with sel := .both })[(0 : Fin 4)].sel ≠ .none := by decide

/-- R178 and R168 at one tick: a candidate's run count and a word's tick count are raised. -/
theorem test_tick_counts :
    let s : State :=
      { site with
        capRec := site.capRec.set 0 { CapRec.reset with sel := .both }
        cap := site.cap.set 0 { CapLine.reset with qual := .live true (some ⟨false, ⟨0, 9, true, false⟩, 4⟩) }
        ser := site.ser.set 0 { Serializer.reset with word := some ⟨5, 0, false, 7⟩ } }
    (after (.tick quiet) s).cap[(0 : Fin 4)].qual = .live true (some ⟨false, ⟨0, 9, true, false⟩, 5⟩) ∧
      (after (.tick quiet) s).ser[(0 : Fin 2)].word = some ⟨5, 0, false, 8⟩ := by decide +kernel

/-- R2, R3 and R5: a frame that began and ended between two ticks is classified with the stamp of the second, less the
ingress latency it came in with. -/
theorem test_unstamped_frame :
    (after (.tick quiet) { site with portD := { site.portD with unstamped := [⟨[1], 0⟩, ⟨[2],
      100⟩] } }).portD.records =
      [⟨[1], ⟨8 * 256, 2048⟩⟩, ⟨[2], ⟨8 * 256 - 100, 1948⟩⟩] := by decide +kernel

theorem wit_TimeAndTrimCommandsActInFree_increment :
    (100000 : Int).natAbs ≤ 100000 ∧ (-100000 : Int).natAbs ≤ 100000 ∧ (-1 : Int) < 0 := by decide

/-- The part at time 8 ns before a tick that brings it to 16 ns. -/
def early : State := { site with time := { sec := 0, ns := 8, frac := 0 } }

theorem wit_StepTickMovesCounterAndTells :
    { early with steps := [.by (-16 * 256)] }.steps = [.by (-16 * 256)] ∧ early.switch = none ∧
      0 ≤ (early.time.advance (incrementOf early.servo.a)).reading + -16 * 256 ∧
      (early.time.advance (incrementOf early.servo.a)).reading + (-16 * 256 - 1) < 0 ∧
      (early.time.advance (incrementOf early.servo.a)).reading + (2 ^ 48 * 10 ^ 9 * 256 - 16 * 256 - 1) <
        2 ^ 48 * 10 ^ 9 * 256 ∧
      2 ^ 48 * 10 ^ 9 * 256 ≤
        (early.time.advance (incrementOf early.servo.a)).reading + (2 ^ 48 * 10 ^ 9 * 256 - 16 * 256) ∧
      { early with steps := [.to (2 ^ 48 - 1) 999999999] }.steps = [.to (2 ^ 48 - 1) 999999999] ∧
      early.departing = [] := by
  decide +kernel

theorem wit_TimeAndTrimCommandsActInFree_time :
    willServe (asked 6 (beBytes 8 (unsignedOf 64 (-8)))) .stepTime 6 (beBytes 8 (unsignedOf 64 (-8))) ∧
      signedOf 64 (fieldAt (beBytes 8 (unsignedOf 64 (-8))) 0 8) = -8 ∧
      (site.time.advance (incrementOf 0)).reading + -8 * 256 = 0 ∧
      willServe (asked 7 (beBytes 6 1 ++ beBytes 4 999999999)) .setTime 7 (beBytes 6 1 ++ beBytes 4 999999999) ∧
      willServe (asked 7 (beBytes 6 1 ++ beBytes 4 1000000000)) .setTime 7 (beBytes 6 1 ++ beBytes 4 1000000000) ∧
      (asked 6 []).servo.st = .free ∧ busy.servo.st ≠ .free := by decide +kernel

theorem wit_TimeAndTrimCommandsActInFree_trim :
    ∀ z ∈ ([50000, 50001, -50000, -50001] : List Int),
      willServe (asked 8 (beBytes 4 (unsignedOf 32 z))) .setTrim 8 (beBytes 4 (unsignedOf 32 z)) ∧
        signedOf 32 (fieldAt (beBytes 4 (unsignedOf 32 z)) 0 4) = z := by decide +kernel

theorem wit_SamplesDriveServo :
    busy.servo.st = .track ∧ busy.servo.locked = true ∧ (10000 : Int).natAbs ≤ busy.servoCfg.outlierGate ∧
      busy.servoCfg.outlierGate < (10001 : Int).natAbs ∧ busy.servo.outlierCount = 3 ∧ busy.servo.lockCount = 7 ∧
      (100 : Int).natAbs ≤ busy.servoCfg.lockWindow ∧ busy.servoCfg.lockWindow < (101 : Int).natAbs ∧
      (400 : Int).natAbs ≤ 4 * busy.servoCfg.lockWindow ∧ 4 * busy.servoCfg.lockWindow < (401 : Int).natAbs ∧
      busy.servoCfg.stepThreshold < (1000001 : Int).natAbs := by decide

/-- R108, R129: the eighth sample in the window, the traced flag clear and a cadence WAITING. -/
theorem wit_SamplesDriveServo_traced :
    let s : State :=
      { busy with
        servo := { busy.servo with locked := false, lockHeld := false, traced := false }
        banks := site.banks.set 0 { Bank.reset with cad := Bank.reset.cad.set 0 { frames with policy := .whenTraced } }
        cad := site.cad.set 0 { CadRun.reset with st := .waiting } }
    s.servo.st = .track ∧ s.servo.locked = false ∧ s.servo.lockCount = 7 ∧ s.servo.traced = false ∧
      s.cad[(0 : Fin 8)].st = .waiting ∧ (s.cadRec 0).mode = .continuous := by decide +kernel

theorem wit_SamplesDriveServo_acquire :
    let s : State := { busy with servo := { busy.servo with st := .acquire } }
    s.servo.st = .acquire ∧ s.servoCfg.stepThreshold < (-1000001 : Int).natAbs ∧
      (-1000000 : Int).natAbs ≤ s.servoCfg.stepThreshold ∧ site.servo.st = .free := by decide

/-- R111 at its bounds: the limit of 600 s just passed and exactly reached, and a limit of 0. -/
theorem wit_SelectionAndHoldoverMoveServo :
    busy.servo.st = .track ∧ busy.servo.lockHeld = true ∧ busy.servo.history ≠ [] ∧ site.servoCfg.holdoverLimit ≠ 0 ∧
      site.servoCfg.holdoverLimit * 256000000000 < ((600 * 256000000000 + 1 : Elapsed) - 0).toNat ∧
      ((600 * 256000000000 : Elapsed) - 0).toNat ≤ site.servoCfg.holdoverLimit * 256000000000 ∧
      { site.servo with st := .holdover, holdStart := some 0 }.holdStart = some 0 ∧
      { site.servoCfg with holdoverLimit := 0 }.holdoverLimit = 0 := by decide

/-- R102, R103: one state for each row. -/
theorem wit_SelectionAndHoldoverMoveServo_rows :
    site.servo.st = .free ∧ site.clock = .normal ∧ { site with clock := .backup none }.clock ≠ .normal ∧
      { busy.servo with st := .acquire }.st = .acquire ∧ busy.servo.locked = true ∧ site.servo.locked = false ∧
      { busy.servo with lockHeld := false }.lockHeld = false ∧
        { busy.servo with st := .holdover }.st = .holdover := by
  decide

/-- The part just before the catch-up advance of 125 ticks that brings the counter to 1,000 ns, an output of cadence 0
active until then or until 1 ns later. -/
def losing (ends : Nat) : State :=
  { site with cad := site.cad.set 0 { CadRun.reset with st := .done, pulse := some ends } }

theorem wit_ClockLossCatchesUp :
    busy.clock = .normal ∧ site.switch = none ∧ busy.departing = [] ∧
      { site with clock := .backup none }.clock ≠ .normal ∧
      (losing 1000).cad[(0 : Fin 8)].pulse = some 1000 ∧
      1000 * 2 ^ 32 ≤ (after (.clockLoss 125 quiet) (losing 1000)).time.total ∧
      (after (.clockLoss 125 quiet) (losing 1001)).time.total < 1001 * 2 ^ 32 ∧
      (∀ k x, (losing 1001).cad[(0 : Fin 8)].st ≠ .running k x) := by
  refine ⟨rfl, rfl, rfl, nofun, rfl, ?_, ?_, nofun⟩ <;> decide +kernel

theorem wit_ClockQualificationAndRestore :
    { site with clock := .backup none }.clock = .backup none ∧
      { site with clock := .backup (some 1249999) }.clock = .backup (some 1249999) ∧ 1250000 ≤ 1250000 ∧
      site.selectedName = none ∧ (withSources [chosen] site).selectedName ≠ none ∧
      site.clock = .normal ∧ busy.servo.locked = true ∧ site.servo.locked = false := by decide

/-! ### Witnesses: cadences, switches, labels, capture -/

theorem wit_EdgeSeriesAndFirstEdge : frames.legal ∧ wordClock.legal := by decide

/-- The part with cadence 0 in a state, under its record, at the very time of the edge at index 5. -/
def atEdgeFive (r : CadRec) (st : CadState) : State :=
  { site with
    banks := site.banks.set 0 { Bank.reset with cad := Bank.reset.cad.set 0 r }
    cad := site.cad.set 0 { st := st, pulse := none, last := none, endedNow := false }
    time := TimeVal.ofTotal (r.edgeTime 5 * 2 ^ 32) }

theorem wit_CadenceEdgeIsProduced :
    let s := atEdgeFive frames (.running 5 (frames.edgeTime 5))
    s.cad[(0 : Fin 8)].st = .running 5 (frames.edgeTime 5) ∧ frames.edgeTime 5 * 2 ^ 32 = s.time.total ∧
      s.cad[(0 : Fin 8)].pulse = none ∧ s.cad[(0 : Fin 8)].endedNow = false ∧ s.switch = none ∧
      (s.cadRec 0).endTime 5 < 2 ^ 48 * 10 ^ 9 := by decide +kernel

/-- R128 and R165: the edge is put off at the tick at which the output ended and while it is active; a serializer bound
to the cadence is idle at the edge, or its word one tick short of complete. -/
theorem wit_CadenceEdgeIsProduced_held :
    let s := atEdgeFive frames (.running 5 (frames.edgeTime 5))
    let c : LabelCfg := { LabelCfg.reset with enable := true }
    { s.cad[(0 : Fin 8)] with endedNow := true }.endedNow = true ∧
      { s.cad[(0 : Fin 8)] with pulse := some (frames.edgeTime 9) }.pulse ≠ none ∧
      s.time.total < frames.edgeTime 5 * 2 ^ 32 + 1 ∧ c.enable = true ∧ c.cadence = 0 ∧
      s.ser[(0 : Fin 2)].word = none ∧ 191 < c.delay + 96 * c.period ∧ c.delay + 96 * c.period ≤ 192 := by
  decide +kernel

theorem wit_OneshotFiresOrMisses :
    let r : CadRec := { frames with mode := .oneShot, policy := .whenTraced }
    let s := atEdgeFive r (.armed 5 (r.edgeTime 5))
    s.cad[(0 : Fin 8)].st = .armed 5 (r.edgeTime 5) ∧ r.edgeTime 5 * 2 ^ 32 = s.time.total ∧ s.servo.traced = false ∧
      (s.cadRec 0).policy = .whenTraced ∧
      s.switch = none ∧ s.mayFire 0 ∧ (s.cadRec 0).endTime 5 < 2 ^ 48 * 10 ^ 9 ∧
      ¬ (s.setCad 0 { s.cad[(0 : Fin 8)] with endedNow := true }).mayFire 0 ∧
      ¬ (s.setCad 0 { s.cad[(0 : Fin 8)] with pulse := some (r.edgeTime 5) }).mayFire 0 ∧
      ((atEdgeFive { r with policy := .always } (.armed 5 (r.edgeTime 5))).cadRec 0).policy = .always := by
  decide +kernel

/-- R128: an ARMED cadence does not fire at the tick that reaches the end of its earlier output. -/
theorem test_fire_put_off :
    let r : CadRec := { frames with mode := .oneShot }
    let s := atEdgeFive r (.armed 5 (r.edgeTime 5))
    let u := s.setCad 0 { s.cad[(0 : Fin 8)] with pulse := some (r.edgeTime 5) }
    after (.oneshotFire 0) u = u ∧
      (after (.oneshotFire 0) (after (.pulseEnd 0) u)).cad[(0 : Fin 8)].st = .armed 5 (r.edgeTime 5) := by
  decide +kernel

/-- R132: an ARMED cadence fires at its edge while the output of an earlier firing is still active. -/
theorem test_fire_in_old_pulse :
    let r : CadRec := { frames with mode := .oneShot }
    let s := atEdgeFive r (.armed 5 (r.edgeTime 5))
    let u := s.setCad 0 { s.cad[(0 : Fin 8)] with pulse := some (r.edgeTime 9) }
    (after (.oneshotFire 0) u).cad[(0 : Fin 8)] =
      { st := .done, pulse := some (r.edgeTime 5 + 1000000), last := some (5, r.edgeTime 5), endedNow := false } := by
  decide +kernel

theorem wit_ArmingFollowsItsTable :
    (∀ b ∈ ([[7], [8]] : List (List Byte)),
      willServe (asked 9 (b ++ beBytes 10 5)) .armOneshot 9 (b ++ beBytes 10 5) ∧
        willServe (asked 10 b) .disarmOneshot 10 b) ∧
      (∃ q ∈ busy.switch, q.trigger = .atEdge 0) ∧ frames.edgeTime (2 ^ 80 - 1) ≥ 2 ^ 48 * 10 ^ 9 := by
  refine ⟨by decide +kernel, ⟨_, rfl, rfl⟩, by decide +kernel⟩

/-- A request to arm cadence 0 at index 5, its edge at 166,833,333 ns, and the counter at a total. -/
def arming (total : Nat) : State :=
  { atEdgeFive { frames with mode := .oneShot } .idle with
    requests := [request 9 ([0] ++ beBytes 10 5)], time := TimeVal.ofTotal total }

/-- R130: the edge exactly at the counter (TOO_LATE), and one fraction step after it (OK). -/
theorem wit_ArmingFollowsItsTable_edge :
    let r : CadRec := { frames with mode := .oneShot }
    let e := r.edgeTime 5
    let body : List Byte := [0] ++ beBytes 10 5
    willServe (arming (e * 2 ^ 32)) .armOneshot 9 body ∧ willServe (arming (e * 2 ^ 32 - 1)) .armOneshot 9 body ∧
      (byteAt body 0).toNat = 0 ∧ fieldAt body 1 10 = 5 ∧ (arming 0).cadRec 0 = r ∧ (arming 0).switch = none ∧
      e < 2 ^ 48 * 10 ^ 9 ∧ e * 2 ^ 32 ≤ (arming (e * 2 ^ 32)).time.total ∧
      (arming (e * 2 ^ 32 - 1)).time.total < e * 2 ^ 32 := by decide +kernel

/-- R130 and 11.6: the status byte of the two responses. -/
theorem test_arm_at_and_after :
    let e := frames.edgeTime 5
    let status (s : State) : List Byte := (after .armOneshot s).portN.ordinaryQ.map fun x => byteAt x.bytes 19
    status (arming (e * 2 ^ 32)) = [9] ∧ status (arming (e * 2 ^ 32 - 1)) = [0] := by decide +kernel

/-- A SWITCH_BANK body. -/
def switchTo (bank trig cad sec ns : Nat) : List Byte :=
  [BitVec.ofNat 8 bank, BitVec.ofNat 8 trig, BitVec.ofNat 8 cad] ++ beBytes 6 sec ++ beBytes 4 ns

theorem wit_SwitchRequestsAreAnswered :
    ∀ b ∈ [switchTo 4 1 0 0 0, switchTo 3 0 0 0 0, switchTo 3 3 0 0 0, switchTo 3 1 7 0 0, switchTo 3 1 8 0 0,
        switchTo 3 2 0 0 999999999, switchTo 3 2 0 0 1000000000, switchTo 0 1 0 0 0],
      willServe (asked 5 b) .switchBank 5 b := by decide +kernel

theorem wit_SwitchAtTimeMovesFormat :
    let s (due tick : Bool) : State :=
      { early with switch := some { target := 1, trigger := .atTime 0 8, due := due, dueTick := tick } }
    (s false false).switch = some { target := 1, trigger := .atTime 0 8, due := false, dueTick := false } ∧
      (0 * 10 ^ 9 + 8) * 2 ^ 32 = (s false false).time.total ∧
      (s true true).switch = some { target := 1, trigger := .atTime 0 8, due := true, dueTick := true } ∧
      (s false false).time.total - 1 < (0 * 10 ^ 9 + 8) * 2 ^ 32 ∧
      (s true false).switch.map SwitchReq.dueTick = some false := by decide

/-- R173, R174: a word with STEP_SEEN set, begun at this tick or earlier, under changed and equal configurations. -/
def worded (count : Nat) (other : LabelCfg) : State :=
  let c : LabelCfg := { LabelCfg.reset with enable := true }
  { early with
    banks :=
      (site.banks.set 0
          { Bank.reset with cad := Bank.reset.cad.set 0 frames, labels := Bank.reset.labels.set 0 c }).set 1
        { Bank.reset with labels := Bank.reset.labels.set 0 other }
    ser := site.ser.set 0 { Serializer.reset with word := some ⟨5, 0, true, count⟩ }
    switch := some { target := 1, trigger := .atTime 0 8, due := false, dueTick := false } }

theorem wit_SwitchAtTimeMovesFormat_words :
    let c : LabelCfg := { LabelCfg.reset with enable := true }
    let s := worded 0 c
    s.banks[s.active].labels[(0 : Fin 2)] = s.banks[(1 : Fin 4)].labels[(0 : Fin 2)] ∧
      s.banks[s.active].cad[(0 : Fin 8)] ≠ s.banks[(1 : Fin 4)].cad[(0 : Fin 8)] ∧
      (worded 1 { c with delay := 1 }).banks[(1 : Fin 4)].labels[(0 : Fin 2)] ≠ c ∧
      191 < c.delay + 96 * c.period ∧ c.delay + 96 * c.period ≤ 192 := by decide +kernel

theorem test_switch_returns_step_seen :
    let c : LabelCfg := { LabelCfg.reset with enable := true }
    let ser (s : State) : Serializer := (after .atTimeReached s).ser[(0 : Fin 2)]
    ser (worded 0 c) = { Serializer.reset with stepSeen := true } ∧
      ser (worded 1 c) = { Serializer.reset with word := some ⟨5, 0, true, 1⟩ } ∧
      ser (worded 1 { c with delay := 1 }) = { Serializer.reset with stepSeen := true } := by decide +kernel

/-- A switch to bank 1, whose cadence 0 differs, at an edge of cadence 0 that the counter has just reached. -/
def switching (r : CadRec) (st : CadState) : State :=
  { atEdgeFive r st with switch := some { target := 1, trigger := .atEdge 0, due := false, dueTick := false } }

theorem wit_SwitchReachedByEdgeOrStep :
    let run := switching frames (.running 5 (frames.edgeTime 5))
    run.switch = some { target := 1, trigger := .atEdge 0, due := false, dueTick := false } ∧
      frames.edgeTime 5 * 2 ^ 32 = run.time.total ∧
      run.cad[(0 : Fin 8)] =
        { st := .running 5 (frames.edgeTime 5), pulse := none, last := none, endedNow := false } ∧
      run.banks[run.active].cad[(0 : Fin 8)] ≠ run.banks[(1 : Fin 4)].cad[(0 : Fin 8)] ∧ run.clock = .normal ∧
      (StepReq.by 256).result (run.time.advance (incrementOf run.servo.a)) ≠ none := by
  decide +kernel

theorem wit_SwitchReachedByEdgeOrStep_armed :
    let r : CadRec := { frames with mode := .oneShot, policy := .whenTraced }
    let arm := switching r (.armed 5 (r.edgeTime 5))
    arm.cad[(0 : Fin 8)].st = .armed 5 (r.edgeTime 5) ∧ r.edgeTime 5 * 2 ^ 32 = arm.time.total ∧ arm.mayFire 0 ∧
      arm.servo.traced = false ∧ LabelCfg.reset = arm.banks[arm.active].labels[(0 : Fin 2)] ∧
      0 < LabelCfg.reset.delay + 96 * LabelCfg.reset.period := by
  decide +kernel

/-- One tick before the edge at index 5, pin 0 routed to cadence 0. -/
def beforeEdge : State :=
  let s := atEdgeFive frames (.running 5 (frames.edgeTime 5))
  { s with
    banks := s.banks.set 0 { s.banks[(0 : Fin 4)] with lines := Bank.reset.lines.set 0 ⟨.cadence 0, .normal⟩ }
    time := TimeVal.ofTotal ((frames.edgeTime 5 - 8) * 2 ^ 32) }

/-- The tick has reached the edge at index 5, which is still to be taken. -/
def edgeTick : State := after (.tick quiet) beforeEdge

theorem wit_PinsFollowTheEventsOfTheTick :
    beforeEdge.steps = [] ∧ beforeEdge.view = none ∧ beforeEdge.clock = .normal ∧ edgeTick.eventReached = true ∧
      edgeTick.view.isSome = true ∧ { beforeEdge with steps := [.by 1] }.steps ≠ [] ∧
      (edgeTick.carry [.cadenceEdge 0]).eventReached = false ∧
      edgeTick.cad[(0 : Fin 8)].st = .running 5 (frames.edgeTime 5) ∧
      frames.edgeTime 5 * 2 ^ 32 = edgeTick.time.total ∧ { site with view := some site.viewNow }.eventReached = false ∧
      (∀ x ∈ [Instr.cadenceEdge 0], actsInTick x = true) := by
  decide +kernel

/-- A pending switch with an AT_TIME trigger, reached and due, at its very time. -/
theorem wit_PinsFollowTheEventsOfTheTick_switch :
    let q : SwitchReq := { target := 1, trigger := .atTime 0 8, due := false, dueTick := false }
    q.trigger = .atTime 0 8 ∧ (0 * 10 ^ 9 + 8) * 2 ^ 32 = early.time.total ∧
      { early with switch := some { q with due := true, dueTick := true } }.eventReached = true ∧
      { early with switch := some q }.eventReached = true := by decide +kernel

/-- What stands held back, and a command that is no event. -/
theorem wit_CommandsKeepQueueStationAndPins_held :
    edgeTick.view ≠ none ∧ actsInTick .writeTable = false ∧ actsInTick .warmReset = false ∧ site.view = none := by
  decide +kernel

theorem wit_SwitchAndLinesStayLegal_view : site.viewOk ∧ edgeTick.viewOk ∧ edgeTick.view ≠ none := by decide +kernel

/-- Pin 0 in a state. -/
def pin0 (s : State) : Bool := s.pins[(0 : Fin 12)]

/-- R126, R159: the pin shows the edge when it is taken, at the tick that reached it; R160: a route written before that
shows from the next tick. -/
theorem test_pin_at_the_tick :
    let written := after .writeTable { edgeTick with requests := [request 4 ([6, 0, 0, 1] ++ [0, 0, 0, 0])] }
    let t := after (.cadenceEdge 0) written
    pin0 edgeTick = false ∧ pin0 (after (.cadenceEdge 0) edgeTick) = true ∧ pin0 t = true ∧
      (t.bank.lines[(0 : Fin 12)]).source = .low ∧ pin0 (after (.tick quiet) t) = false := by decide +kernel

/-- R156, R153: an edge that triggers a switch requested at its own tick appears at no pin where the switch restarts the
cadence; R149: a switch cancelled at the tick that reaches its time shows no route of its target. -/
theorem test_undone_at_the_tick :
    let ask (b : List Byte) (s : State) : State := after .switchBank { s with requests := [request 5 b] }
    let high : Bank := { Bank.reset with lines := Vector.replicate 12 ⟨.high, .normal⟩ }
    let q : SwitchReq := { target := 1, trigger := .atTime 0 9, due := false, dueTick := false }
    let reached := after (.tick quiet) { early with banks := site.banks.set 1 high, switch := some q }
    pin0 (after (.cadenceEdge 0) (ask (switchTo 1 1 0 0 0) edgeTick)) = false ∧
      (after (.cadenceEdge 0) (ask (switchTo 1 1 0 0 0) edgeTick)).view = none ∧
      reached.view.isSome = true ∧ pin0 (ask (switchTo 0 2 0 0 9) reached) = false ∧
      (ask (switchTo 0 2 0 0 9) reached).view = none ∧ pin0 (after .atTimeReached reached) = true := by
  decide +kernel

/-- Cadence 1 with an output that runs beyond the tick that reaches the time of a switch to bank 1, whose line 0 routes
cadence 1 under its record as rewritten. -/
def reachedSwitch : State :=
  let r : CadRec := { CadRec.reset with width := 9 }
  let line : Vector Route 12 := Vector.replicate 12 ⟨.cadence 1, .normal⟩
  let routed : Bank := { Bank.reset with lines := line }
  let banks := (site.banks.set 0 routed).set 1 { routed with cad := routed.cad.set 1 r }
  after (.tick quiet)
    { early with
      banks := banks
      cad := early.cad.set 1 { st := .idle, pulse := some 1000, last := none, endedNow := false }
      switch := some { target := 1, trigger := .atTime 0 9, due := false, dueTick := false } }

/-- R156, R157, R139: an output that a rewrite ends at the tick of a switch, before the switch is taken, is inactive at
the pins of that tick, though its records are equal when they are compared. -/
theorem test_rewrite_meets_switch :
    let r : CadRec := { CadRec.reset with width := 9 }
    let u := storeCad 0 1 r reachedSwitch
    let t := after .atTimeReached u
    reachedSwitch.view.isSome = true ∧ u.view.isSome = true ∧ t.view = none ∧ t.active = 1 ∧
      t.cad[(1 : Fin 8)] = u.cad[(1 : Fin 8)] ∧ pin0 t = false := by
  decide +kernel

/-- A switch that is the last event of its tick. -/
theorem wit_PinsFollowTheEventsOfTheTick_last :
    let t := after .atTimeReached reachedSwitch
    reachedSwitch.view.isSome = true ∧ reachedSwitch.switch ≠ none ∧ t.switch = none ∧ t.view = none ∧
      t.view ≠ reachedSwitch.view ∧ edgeTick.view.isSome = true := by decide +kernel

theorem wit_LabelWordsAreComposedAndShifted :
    { chosen with civilValid := true }.civilValid = true ∧ (withSources [chosen] site).selected = some chosen ∧
      chosen.civilValid = false ∧ site.selected = none := by decide

theorem wit_LabelWordsAreComposedAndShifted_shift :
    let c : LabelCfg := { enable := true, cadence := 0, delay := 125, period := 256, edge := .falling }
    let w (n : Nat) : LabelWord := { bits := 5, index := 0, stepSeen := false, count := n }
    c.enable = true ∧ (w 124).count < c.delay ∧ (w 125).count = c.delay + 0 * c.period + 0 ∧
      (w 24700).count = c.delay + 95 * c.period + 255 ∧ c.delay + 96 * c.period ≤ (w 24701).count := by decide

/-- Capture line 0 under a record, with a qualifier and a ring of so many stamps. -/
def capturing (mode : RingMode) (q : Qualifier) (sample : Bool) (held : Nat) (st : LineState) : State :=
  { site with
    capRec := site.capRec.set 0 { sel := .rising, qual := 2, mode := mode, bound := none, window := 1 }
    cap :=
      site.cap.set 0
        { qual := q, sample := sample, ring := List.replicate held ⟨0, 1, false, false⟩, st := st, phase := none,
          inWindow := true } }

theorem wit_CaptureMakesAndAccepts :
    let c : Cand := { level := true, stamp := ⟨0, 9, false, false⟩, run := 2 }
    (∀ s ∈ [capturing .continuous (.live false (some c)) true 2 .run,
        capturing .continuous (.live false (some c)) true 3 .run,
        capturing .continuous (.live false (some c)) true 4 .run,
          capturing .oneShot (.live false (some c)) true 3 .run,
        capturing .oneShot (.live false (some c)) true 4 .full],
      s.cap[(0 : Fin 4)].qual = .live false (some c) ∧ s.cap[(0 : Fin 4)].sample = c.level ∧
        s.capRec[(0 : Fin 4)].qual ≤ c.run) ∧
      (capturing .oneShot (.live false none) true 0 .run).cap[(0 : Fin 4)].sample ≠ false := by decide

/-- R178: the states of a line in which a command changes nothing, at the boundary of the qualification. -/
theorem wit_CaptureMakesAndAccepts_nothing :
    let c (n : Nat) : Cand := { level := true, stamp := ⟨0, 9, false, false⟩, run := n }
    (capturing .oneShot (.live false (some (c 1))) true 0 .run).capRec[(0 : Fin 4)].qual = (c 1).run + 1 ∧
      (capturing .oneShot (.live false (some (c 1))) true 0 .run).capRec[(0 : Fin 4)].sel ≠ .none ∧
      (capturing .oneShot .seeding true 0 .run).cap[(0 : Fin 4)].qual = .seeding ∧
      (capturing .oneShot .idle true 0 .run).cap[(0 : Fin 4)].qual = .idle := by decide

/-- R178: after q + 1 ticks of the new level, with q = 2, the transition is accepted, and not one tick earlier. -/
theorem test_accept_after_q_ticks :
    let c (n : Nat) : Cand := { level := true, stamp := ⟨0, 9, false, false⟩, run := n }
    let s (n : Nat) : State := capturing .oneShot (.live false (some (c n))) true 0 .run
    after (.captureAccept 0) (s 1) = s 1 ∧
      (after (.captureAccept 0) (s 2)).cap[(0 : Fin 4)].ring = [⟨0, 9, false, false⟩] := by decide +kernel

theorem wit_NearestEdgeIsNearest :
    { frames with phase := 9 }.legal ∧ 8 < { frames with phase := 9 }.phase ∧ frames.edgeTime 1 ≤ 33366666 ∧
      ∀ i ∈ [0, 1], frames.edgeTime i ≤ 33366666 → i ≤ 1 := by decide

theorem wit_PhaseAlarmOnLeavingWindow :
    (capturing .continuous .idle false 0 .run).capRec[(0 : Fin 4)].bound = none ∧
      { frames with mode := .off }.mode = .off ∧ frames.mode ≠ .off ∧
      ((33366666 + 16 : Nat) : Int) - frames.nearestEdge (33366666 + 16) = 16 ∧
      (16 : Int).natAbs ≤ 2 ^ ((1#4).toNat + 3) ∧ 2 ^ ((1#4).toNat + 3) < (17 : Int).natAbs := by decide

/-! ### Witnesses: management, resets -/

theorem wit_AgentChecksAndAnswers :
    { asked 8 [0, 0, 0] with restart := .due }.restart ≠ .idle ∧ site.requests = [] ∧
      commandOf (request 8 [0, 0, 0]).code = some .setTrim ∧ (request 8 [0, 0,
        0]).bodyLen < Command.setTrim.bodySize ∧
      permitted { site with managers := site.managers.set 3 5 } .setTrim 0x0B0000000001 [0, 0, 0, 0] = false ∧
      permitted { site with managers := site.managers.set 3 5 } .readCapture 0x0B0000000001 [0, 0] = true ∧
      permitted { site with managers := site.managers.set 3 5 } .readCapture 0x0B0000000001 [0, 1] = false ∧
      commandOf (request 14 []).code = none ∧ commandOf (request 0 []).code = none := by decide +kernel

theorem wit_AgentChecksAndAnswers_response :
    ((loaded 0 31).port .n).link = .up ∧ ((loaded 0 31).port .n).ordinaryQ.length < 32 ∧
      32 ≤ ((loaded 0 32).port .n).ordinaryQ.length ∧ (State.reset.port .n).link = .down ∧
      (captureBody CapLine.reset).length < 65536 := by decide +kernel

theorem wit_ReadingCommandsAnswer :
    willServe (asked 1 []) .identify 1 [] ∧ willServe (asked 2 []) .readStatus 2 [] ∧
      willServe (asked 3 [5, 3, 7, 1]) .readTable 3 [5, 3, 7, 1] ∧
      willServe (asked 3 [5, 4, 0, 1]) .readTable 3 [5, 4, 0, 1] ∧ tableOf 5 4 = none ∧
      tableOf 5 3 = some (.cadence 3) ∧ willServe (asked 11 [3, 1]) .readCapture 11 [3, 1] ∧
      willServe (asked 11 [3, 2]) .readCapture 11 [3, 2] ∧ willServe (asked 11 [4, 0]) .readCapture 11 [4, 0] := by
  decide +kernel

/-- READ_STATUS with everything present, at the ends of the ranges of its fields. -/
theorem wit_ReadingCommandsAnswer_status :
    let s := beforeEdge
    (withSources [chosen] s).selected = some chosen ∧ s.selected = none ∧ s.exch.lastOffset = none ∧
      ({ exact := 0, ns := -2147483647 } : Offset).ns.natAbs < 2 ^ 31 ∧ busy.servo.a.natAbs ≤ 100000 ∧
      (∃ q ∈ busy.switch, q.trigger = .atEdge 0) ∧ busy.cad[(0 : Fin 8)].st = .running 5 (frames.edgeTime 5) ∧
      5 < 2 ^ 80 ∧ frames.edgeTime 5 < 2 ^ 48 * 10 ^ 9 ∧ busy.timeOk := by decide +kernel

theorem wit_WriteTableAppliesInOrder :
    willServe (asked 4 [4, 0, 0, 1, 0, 37]) .writeTable 4 [4, 0, 0, 1, 0, 37] ∧
      willServe (asked 4 [4, 0, 0, 1, 0]) .writeTable 4 [4, 0, 0, 1, 0] ∧
      willServe (asked 4 [4, 0, 1, 0]) .writeTable 4 [4, 0, 1, 0] ∧ TableId.civil.entries = 1 ∧
      TableId.civil.size = 2 ∧ tableOf 11 0 = some .sources ∧
      tableOf 4 0 = some .civil := by decide +kernel

set_option maxRecDepth 20000 in
theorem wit_WriteTableAppliesInOrder_entries :
    writeEntry .civil 0 [0, 37] site = .applied false { site with civil := 37 } ∧
      writeEntry (.lines 0) 0 [8, 0, 0, 0] site = .refused .badValue := ⟨rfl, rfl⟩

/-- A written cadence record: mode, shape and policy bytes, rate, phase and width. -/
def cadBytes (mode num den width : Nat) : List Byte :=
  [BitVec.ofNat 8 mode, 0, 0] ++ beBytes 4 num ++ beBytes 4 den ++ beBytes 4 0 ++ beBytes 4 width

/-- R150: an entry of the target bank and the trigger cadence, and one that is not blocked; R120 at its bounds. -/
theorem wit_WrittenBankRecordsTakeEffect :
    (∃ q ∈ busy.switch, (1 : Fin 4) = q.target) ∧ (∃ q ∈ busy.switch, q.trigger = .atEdge 0) ∧ busy.active = 0 ∧
      site.switch = none ∧ (decodeCad (cadBytes 2 16777215 16777215 8)).isSome = true ∧
      decodeCad (cadBytes 3 1 1 8) = none ∧ decodeCad (cadBytes 1 16777216 16777215 8) = none ∧
      decodeCad (cadBytes 1 10000001 1 8) = none ∧
      decodeCad (cadBytes 1 10000000 1 93) = decodeCad (cadBytes 1 10000000 1 92) ∧
      decodeRoute [2, 7, 1, 0] = some ⟨.cadence 7, .inverted⟩ ∧ decodeRoute [2, 8, 1, 0] = none ∧
      (decodeLabel [1, 7, 0, 0, 0, 2, 1]).isSome = true ∧ decodeLabel [1, 7, 0, 0, 0, 1, 1] = none := by
  refine ⟨⟨_, rfl, rfl⟩, ⟨_, rfl, rfl⟩, rfl, rfl, ?_⟩
  decide +kernel

/-- The SERVO record of a cold reset with another domain, multiple or interval code, as a manager writes it. -/
def servoBytes (domain multiple : Nat) (code : Int) (limit : Nat) : List Byte :=
  (readServo
      { site with
        servoCfg := { ServoCfg.reset with multiple := multiple, probeCode := code, holdoverLimit := limit } }).set
    0 (BitVec.ofNat 8 domain)

theorem wit_WrittenEntriesTakeEffect :
    (decodeServo (servoBytes 127 10 2 600)).isSome = true ∧ decodeServo (servoBytes 128 10 2 600) = none ∧
      decodeServo (servoBytes 0 3 (-3) 600) = some ServoCfg.reset ∧ decodeServo (servoBytes 0 1 2 600) = none ∧
      (withSources [chosen] site).oneSelected ∧ (decodeCapture [3, 255, 1, 7, 15]).isSome = true ∧
      decodeCapture [3, 255, 1, 8, 15] = none ∧ (decodeNotify [1, 0, 0, 0, 0, 0, 9, 1, 0, 5, 255]).isSome = true ∧
      decodeNotify [1, 0, 0, 0, 0, 0, 9, 2, 0, 5, 255] = none ∧ decodeClass [1] = none ∧
      (decodeClass (encodeClass marksEntry)).isSome = true := by
  decide +kernel

/-- One SERVO write that changes the domain, the interval code and the holdover limit and so removes the selected
record. -/
theorem wit_WrittenEntriesTakeEffect_loses :
    let s := withSources [chosen] site
    (decodeServo (servoBytes 127 10 2 601)).any (fun c =>
        c.domain ≠ s.servoCfg.domain ∧ c.probeCode ≠ s.servoCfg.probeCode ∧
          c.holdoverLimit ≠ s.servoCfg.holdoverLimit) = true ∧
      s.sources[(0 : Fin 8)] = some chosen ∧ chosen.selected = true ∧ s.oneSelected := by
  decide +kernel

/-- A CLASSIFY entry: control, presence, VLAN id, EtherType, UDP port, carrier, kind set, domain, action, class. -/
def classBytes (control pres vlan et port carrier kinds domain action cls : Nat) : List Byte :=
  [BitVec.ofNat 8 control, BitVec.ofNat 8 pres] ++ List.replicate 12 0 ++ beBytes 2 vlan ++ beBytes 2 et ++
    beBytes 2 port ++
    [BitVec.ofNat 8 carrier, BitVec.ofNat 8 kinds, BitVec.ofNat 8 domain, BitVec.ofNat 8 action, BitVec.ofNat 8 cls]

/-- R32: on each side of each of its conditions. -/
theorem wit_WrittenBytesStandAtTheirOffsets :
    (∀ b ∈ [classBytes 7 0x32 4095 0 0 1 31 127 4 1, classBytes 3 0x02 65535 0 0 0 255 255 0 0,
        classBytes 5 0x0C 0 0x0800 320 2 0 0 3 1],
      decodeClass b ≠ none ∧ decodeClass b ≠ some ClassEntry.empty) ∧
      (∀ b ∈ [classBytes 1 0 0 0 0 0 0 0 0 0, classBytes 7 0x02 4096 0 0 0 0 0 0 0,
        classBytes 7 0x10 0 0 0 1 32 0 0 0,
          classBytes 7 0x20 0 0 0 1 0 128 0 0, classBytes 7 0 0 0 0 3 0 0 0 0, classBytes 7 0 0 0 0 1 0 0 5 0,
          classBytes 7 0 0 0 0 1 0 0 0 2, classBytes 7 0 0 0 0 0 0 0 1 0, classBytes 7 0x10 0 0 0 0 1 0 0 0,
          classBytes 7 0x08 0 0 320 1 0 0 0 0, classBytes 7 0x0C 0 0x0801 320 2 0 0 0 0],
        decodeClass b = none) ∧
      decodeClass (classBytes 6 255 4096 0 0 9 255 255 9 9) = some ClassEntry.empty := by decide +kernel

/-- R54, R177, R207, R158 with R209: the encodings of the other tables at their bounds. -/
theorem wit_WrittenBytesStandAtTheirOffsets_others :
    (decodeCapture [3, 255, 1, 255, 15]).isSome = true ∧ decodeCapture [4, 0, 0, 255, 0] = none ∧
      decodeCapture [0, 0, 2, 255, 0] = none ∧ decodeCapture [0, 0, 0, 254, 0] = none ∧
      decodeNotify [0, 0, 0, 0, 0, 0, 9, 1, 0, 5, 255] = some ⟨none, .d, 5, 255⟩ ∧
      decodeRoute [4, 1, 0] = some ⟨.labelClock 1, .normal⟩ ∧ decodeRoute [4, 2, 0] = none ∧
      decodeRoute [7, 99, 1] = some ⟨.backup, .inverted⟩ ∧ decodeRoute [0, 0, 2] = none := by decide +kernel

theorem wit_WrittenRecordsReadBack :
    { busy with classify := busy.classify.set 3 marksEntry }.classifyOk ∧
      decodeClass (encodeClass marksEntry) = some marksEntry := by
  refine ⟨by decide +kernel, by decide +kernel⟩

/-- R142, R175, R191, R185: runtime fields present, and absent, at the ends of their ranges. -/
theorem wit_RuntimeFieldsReadAtTheirOffsets :
    let c : LabelCfg := { LabelCfg.reset with enable := true, delay := 3 }
    let e : Int := -(2 ^ 63)
    busy.portsOk ∧ busy.cad[(0 : Fin 8)].st = .running 5 (frames.edgeTime 5) ∧ busy.active = 0 ∧
      (∀ i e, site.cad[(0 : Fin 8)].st ≠ .running i e ∧ site.cad[(0 : Fin 8)].st ≠ .armed i e) ∧
      (2 ^ 48 * 10 ^ 9 - 1) < 2 ^ 48 * 10 ^ 9 ∧ 194 = c.delay + 95 * c.period + 1 ∧ 2 < c.delay ∧
      194 < c.delay + 96 * c.period ∧ -(2 ^ 63) ≤ e ∧ e < 2 ^ 63 ∧
      [(⟨2 ^ 48 - 1, 999999999, true, false⟩ : CapStamp)][0]? = some ⟨2 ^ 48 - 1, 999999999, true, false⟩ ∧
      (withSources [chosen] site).sources[(0 : Fin 8)] = some chosen ∧ site.sources[(0 : Fin 8)] = none := by
  refine ⟨by decide +kernel, rfl, rfl, fun _ _ => ⟨nofun, nofun⟩, ?_⟩
  decide +kernel

/-- 11.4, R67: the time since last heard, one unit short of 2 µs and held at its greatest value. -/
theorem test_source_last_heard :
    let heardAgo (e : Elapsed) : Nat :=
      fieldAt (readEntry .sources 0 { withSources [chosen] site with elapsed := e }) 37 4
    heardAgo 511999 = 1 ∧ heardAgo (2 ^ 63) = 4294967295 := by decide +kernel

theorem wit_ResetsAndRestart :
    willServe (asked 13 []) .restart 13 [] ∧ ((loaded 0 31).port .n).ordinaryQ.length = 31 ∧
      { site with restart := .due }.restart = .due ∧ site.restart ≠ .due := by decide +kernel

/-- R17, R50: a Follow that waits at a due warm reset and names a held record; a one-step Mark that waits on. -/
theorem wit_ResetsAndRestart_departures :
    let d : Departure := { port := .d, entry := marked (message 3 38 0 2 1 []), latency := 0, sending := true }
    let m : Departure := { d with entry := marked (message 2 38 0 2 1 []) }
    let h := readHdr d.entry.bytes 14
    let x := resRec 2
    d.needsOwnStamp = false ∧ m.needsOwnStamp = true ∧ 38 ≤ h.len ∧ h.kind = 3 ∧ x.sender = h.sender ∧
      x.portNo = h.portNo ∧ x.seq = h.seq ∧ x.domain = h.domain ∧ x.dir = d.port := by decide +kernel

/-- R17, R50: that Follow leaves with the record's residence in its correction field. -/
theorem test_warm_reset_answers :
    let s : State :=
      { answering with
        restart := .due, residence := [resRec 1]
        departing :=
          [{ port := .d, entry := marked (message 3 38 0 1 1 []), latency := 0, sending := true }] }
    ((after .warmReset s).portD.tx.bind TxFrame.wire).map (fun b => fieldAt b 22 8) = some 100 := by decide +kernel

/-! ### The longest frame

Its check sequence takes the kernel longest, so it stands last. -/

set_option maxRecDepth 100000 in
theorem wit_FrameReceptionChecks_most :
    (List.replicate 1996 (0 : Byte) ++ fcsOf (List.replicate 1996 0)).length = 2000 ∧
      fcsCorrect (List.replicate 1996 0 ++ fcsOf (List.replicate 1996 0)) = true ∧
      2000 < (List.replicate 2001 (0 : Byte)).length ∧ fcsCorrect (List.replicate 64 0) = false := by
  decide +kernel

end Sys2Proof.Tests
end

section
/-!
PROOFS. The ranking of time sources (R63).
-/

namespace Sys2Proof.Machine

/-! ### The comparison of lists of numbers -/

@[simp] theorem lexLess_cons_cons (a b : Nat) (as bs : List Nat) :
    lexLess (a :: as) (b :: bs) = true ↔ a < b ∨ a = b ∧ lexLess as bs = true := by
  simp [lexLess]

/-- On lists of one length the comparison is the lexicographic order of the library. -/
theorem lexLess_iff_lt {as bs : List Nat} (h : as.length = bs.length) : lexLess as bs = true ↔ as < bs := by
  induction as generalizing bs with
  | nil =>
    have : bs = [] := List.eq_nil_of_length_eq_zero h.symm
    simp [this, lexLess]
  | cons a as ih =>
    cases bs with
    | nil => simp at h
    | cons b bs => rw [lexLess_cons_cons, List.cons_lt_cons_iff, ih (Nat.succ.inj h)]

/-- The comparison goes by the first place at which two lists of one length differ. -/
theorem lexLess_iff_first_difference {n : Nat} {as bs : List Nat} (ha : as.length = n) (hb : bs.length = n) :
    lexLess as bs = true ↔
      ∃ i : Fin n, (∀ j : Fin n, j < i → as[j]? = bs[j]?) ∧ as.getD i 0 < bs.getD i 0 := by
  induction as generalizing n bs with
  | nil =>
    subst ha
    simp [lexLess]
  | cons a as ih =>
    cases bs with
    | nil => simp [← hb] at ha
    | cons b bs =>
      obtain _ | n := n
      · simp at ha
      · rw [lexLess_cons_cons, ih (Nat.succ.inj ha) (Nat.succ.inj hb), Fin.exists_fin_succ]
        simp [Fin.forall_fin_succ, and_assoc]

/-! ### The rank of a record -/

/-- One record ranks better than another exactly when its key is the lower one. -/
theorem SourceRec.better_iff_rankKey_lt (a b : SourceRec) : a.better b = true ↔ a.rankKey < b.rankKey :=
  lexLess_iff_lt rfl

/-- Records with the same key have the same name: the name is the end of the key. -/
theorem SourceRec.name_eq_of_rankKey_eq {a b : SourceRec} (h : a.rankKey = b.rankKey) :
    a.sender = b.sender ∧ a.portNo = b.portNo := by
  simp only [SourceRec.rankKey, List.cons.injEq] at h
  obtain ⟨-, -, -, -, -, -, -, hsender, hport, -⟩ := h
  exact ⟨BitVec.eq_of_toNat_eq hsender, BitVec.eq_of_toNat_eq hport⟩

theorem SourceRec.rankKey_ne_of_name_ne {a b : SourceRec} (h : a.sender ≠ b.sender ∨ a.portNo ≠ b.portNo) :
    a.rankKey ≠ b.rankKey := by
  intro hkey
  obtain ⟨hsender, hport⟩ := SourceRec.name_eq_of_rankKey_eq hkey
  exact h.elim (· hsender) (· hport)

theorem SourceRec.better_asymm {a b : SourceRec} (h : a.better b = true) : b.better a = false := by
  rw [Bool.eq_false_iff, ne_eq, better_iff_rankKey_lt]
  exact lt_asymm ((better_iff_rankKey_lt a b).mp h)

theorem SourceRec.better_total {a b : SourceRec} (h : a.sender ≠ b.sender ∨ a.portNo ≠ b.portNo) :
    a.better b = true ∨ b.better a = true := by
  simpa only [better_iff_rankKey_lt] using lt_or_gt_of_ne (rankKey_ne_of_name_ne h)

/-! ### The worst record of a list -/

/-- The worst record of a list is the library's first element of the greatest key. -/
theorem worstOf_eq_argmax (l : List SourceRec) : worstOf l = l.argmax SourceRec.rankKey := by
  cases l with
  | nil => rfl
  | cons r rs =>
    refine (List.foldl_hom some fun a b => ?_).symm
    simp only [List.argAux, SourceRec.better_iff_rankKey_lt, apply_ite some]

theorem mem_argmax_of_worstOf {l : List SourceRec} {a : SourceRec} (h : worstOf l = some a) :
    a ∈ l.argmax SourceRec.rankKey := by
  rwa [Option.mem_def, ← worstOf_eq_argmax]

theorem mem_of_worstOf {l : List SourceRec} {a : SourceRec} (h : worstOf l = some a) : a ∈ l :=
  List.argmax_mem (mem_argmax_of_worstOf h)

theorem rankKey_le_of_worstOf {l : List SourceRec} {a x : SourceRec} (h : worstOf l = some a) (hx : x ∈ l) :
    x.rankKey ≤ a.rankKey :=
  not_lt.mp (List.not_lt_of_mem_argmax hx (mem_argmax_of_worstOf h))

/-- Among records of distinct names, every other one ranks better than the worst. -/
theorem better_worstOf {l : List SourceRec} {a x : SourceRec}
    (distinct : l.Pairwise fun x y => x.sender ≠ y.sender ∨ x.portNo ≠ y.portNo) (h : worstOf l = some a)
    (hx : x ∈ l) (hne : x ≠ a) : x.better a = true := by
  have : Std.Symm fun x y : SourceRec => x.sender ≠ y.sender ∨ x.portNo ≠ y.portNo :=
    ⟨fun _ _ => Or.imp Ne.symm Ne.symm⟩
  have hname := distinct.forall hx (mem_of_worstOf h) hne
  exact (x.better_iff_rankKey_lt a).mpr
    (lt_of_le_of_ne (rankKey_le_of_worstOf h hx) (SourceRec.rankKey_ne_of_name_ne hname))

/-- Settles O25: the first clause is the comparison at the first difference of the two keys, the others come from the
linear order of the keys, in which distinct names make distinct keys. -/
theorem rankingIsTotal : Obligations.RankingIsTotal := by
  intro a b
  exact ⟨lexLess_iff_first_difference rfl rfl, SourceRec.better_asymm, SourceRec.better_total,
    fun _ distinct h => ⟨mem_of_worstOf h, fun _ => better_worstOf distinct h⟩⟩

end Sys2Proof.Machine
end

section
/-!
PROOFS. The nearest edge of a cadence record (R187).
-/

namespace Sys2Proof.Machine

/-! ### The index of an edge, found by division -/

@[simp] theorem edgeTime_zero (r : CadRec) : r.edgeTime 0 = r.phase := by simp [CadRec.edgeTime]

/-- The index that `firstAt` divides out is the smallest whose edge lies at or after `t`. -/
theorem firstAt_le_iff {r : CadRec} (hnum : 1 ≤ r.num) (hden : 1 ≤ r.den) (t k : Nat) :
    r.firstAt t ≤ k ↔ t ≤ r.edgeTime k := by
  have hspan : 0 < r.span := Nat.mul_pos hden (by decide)
  unfold CadRec.firstAt CadRec.edgeTime
  split
  next hle => exact iff_of_true (Nat.zero_le k) (Nat.le_add_left_of_le hle)
  next =>
    calc ((t - r.phase) * r.num + r.span - 1) / r.span ≤ k
      _ ↔ (t - r.phase) * r.num ≤ k * r.span := by
        rw [← Nat.ceilDiv_eq_add_pred_div, ceilDiv_le_iff_le_mul hspan, Nat.mul_comm r.span]
      _ ↔ t - r.phase ≤ k * r.span / r.num := (Nat.le_div_iff_mul_le hnum).symm
      _ ↔ t ≤ k * r.span / r.num + r.phase := Nat.sub_le_iff_le_add

/-- From the phase on, the index before the first edge later than `x` is the largest whose edge is at or before `x`. -/
theorem edgeTime_le_iff_le_firstAt {r : CadRec} (hnum : 1 ≤ r.num) (hden : 1 ≤ r.den) {x : Nat} (hx : r.phase ≤ x)
    (i : Nat) : r.edgeTime i ≤ x ↔ i ≤ r.firstAt (x + 1) - 1 := by
  have hi := firstAt_le_iff hnum hden (x + 1) i
  have h0 := firstAt_le_iff hnum hden (x + 1) 0
  rw [edgeTime_zero] at h0
  omega

theorem firstAt_sub_one_of_largest {r : CadRec} (hnum : 1 ≤ r.num) (hden : 1 ≤ r.den) {x j : Nat} (hx : r.phase ≤ x)
    (hj : r.edgeTime j ≤ x) (largest : ∀ i, r.edgeTime i ≤ x → i ≤ j) : r.firstAt (x + 1) - 1 = j := by
  have index := edgeTime_le_iff_le_firstAt hnum hden hx
  exact le_antisymm (largest _ ((index _).mpr le_rfl)) ((index j).mp hj)

/-! ### The nearest edge -/

theorem nearestEdge_of_lt_phase {r : CadRec} {x : Nat} (hx : x < r.phase) : r.nearestEdge x = r.edgeTime 0 := if_pos hx

/-- From the phase on, the nearest edge is one of the two around `x`. -/
theorem nearestEdge_of_largest {r : CadRec} (hnum : 1 ≤ r.num) (hden : 1 ≤ r.den) {x j : Nat} (hx : r.phase ≤ x)
    (hj : r.edgeTime j ≤ x) (largest : ∀ i, r.edgeTime i ≤ x → i ≤ j) :
    r.nearestEdge x =
      if x - r.edgeTime j ≤ r.edgeTime (j + 1) - x then r.edgeTime j else r.edgeTime (j + 1) := by
  rw [CadRec.nearestEdge, if_neg (Nat.not_lt.mpr hx), firstAt_sub_one_of_largest hnum hden hx hj largest]

/-- Before the phase, edge 0 is nearest; from the phase on, some index is the largest whose edge is at or before `x`,
and the edge after it is later than `x`. -/
theorem nearestEdge_cases {r : CadRec} (hnum : 1 ≤ r.num) (hden : 1 ≤ r.den) (x : Nat) :
    (x < r.edgeTime 0 ∧ r.nearestEdge x = r.edgeTime 0) ∨
      ∃ j, r.edgeTime j ≤ x ∧ x < r.edgeTime (j + 1) ∧
        r.nearestEdge x =
          if x - r.edgeTime j ≤ r.edgeTime (j + 1) - x then r.edgeTime j else r.edgeTime (j + 1) := by
  rcases Nat.lt_or_ge x r.phase with hlt | hge
  · exact .inl ⟨by rwa [edgeTime_zero], nearestEdge_of_lt_phase hlt⟩
  · have index := edgeTime_le_iff_le_firstAt hnum hden hge
    have hj := (index _).mpr le_rfl
    exact .inr ⟨_, hj, Nat.lt_of_not_le fun h => Nat.not_succ_le_self _ ((index _).mp h),
      nearestEdge_of_largest hnum hden hge hj fun i => (index i).mp⟩

theorem exists_nearestEdge_eq {r : CadRec} (hnum : 1 ≤ r.num) (hden : 1 ≤ r.den) (x : Nat) :
    ∃ j, r.nearestEdge x = r.edgeTime j := by
  obtain ⟨-, h0⟩ | ⟨j, -, -, hj⟩ := nearestEdge_cases hnum hden x
  · exact ⟨0, h0⟩
  · rw [hj, ← apply_ite r.edgeTime]
    exact ⟨_, rfl⟩

/-- No edge is nearer, and an edge as near is not the earlier: the edges stand in the order of their indices, so every
edge lies outside the gap around `x` between the two that are compared. -/
theorem nearestEdge_nearest {r : CadRec} (hnum : 1 ≤ r.num) (hden : 1 ≤ r.den) (x k : Nat) :
    ((x : Int) - r.nearestEdge x).natAbs ≤ ((x : Int) - r.edgeTime k).natAbs ∧
      (((x : Int) - r.nearestEdge x).natAbs = ((x : Int) - r.edgeTime k).natAbs →
        r.nearestEdge x ≤ r.edgeTime k) := by
  obtain ⟨hx, h0⟩ | ⟨j, hj, hsucc, hnear⟩ := nearestEdge_cases hnum hden x
  · have hk := edgeTime_mono r (Nat.zero_le k)
    omega
  · have hk : r.edgeTime k ≤ r.edgeTime j ∨ r.edgeTime (j + 1) ≤ r.edgeTime k :=
      (Nat.lt_or_ge j k).symm.imp (edgeTime_mono r) (edgeTime_mono r)
    split at hnear <;> omega

/-- Settles O50: the index found by division is the largest whose edge is at or before x, and the edges stand in the
order of their indices. -/
theorem nearestEdgeIsNearest : Obligations.NearestEdgeIsNearest := by
  intro r x hlegal
  obtain ⟨⟨hnum, -⟩, ⟨hden, -⟩, -⟩ := hlegal
  refine ⟨nearestEdge_of_lt_phase, fun j hx hj largest => ?_, exists_nearestEdge_eq hnum hden x,
    nearestEdge_nearest hnum hden x⟩
  rw [nearestEdge_of_largest hnum hden hx hj largest]
  exact ⟨fun h => if_pos h, fun h => if_neg (Nat.not_le.mpr h)⟩

end Sys2Proof.Machine
end

section
/-!
PROOFS. The comparison of a captured transition (R188) and its window test (R189).
-/

namespace Sys2Proof.Machine

@[simp] theorem raiseIf_false (e : Event) (s : State) : raiseIf false e s = s := rfl
@[simp] theorem raiseIf_true (e : Event) (s : State) : raiseIf true e s = raise e s := rfl

/-! ### Which stamps are compared (R188) -/

theorem comparePhase_of_unbound {n : Fin 4} {s : State} (hb : s.capRec[n].bound = none) (st : CapStamp) :
    comparePhase n st s = s := by
  simp only [comparePhase, hb]

section
variable {n : Fin 4} {st : CapStamp} {s : State} {c : Fin 8} (hb : s.capRec[n].bound = some c)
include hb

theorem comparePhase_of_excluded (h : (s.cadRec c).mode = .off ∨ st.beforeStep = true) : comparePhase n st s = s := by
  simp only [comparePhase, hb, if_pos h]

theorem comparePhase_of_compared (hmode : (s.cadRec c).mode ≠ .off) (hstep : st.beforeStep = false) :
    comparePhase n st s = phaseResult n ((st.totalNs : Int) - (s.cadRec c).nearestEdge st.totalNs) s := by
  have h : ¬ ((s.cadRec c).mode = .off ∨ st.beforeStep = true) := by simp [hmode, hstep]
  simp only [comparePhase, hb, if_neg h]

end

/-! ### The window test (R189) -/

theorem phaseResult_of_no_window {n : Fin 4} {s : State} (hw : s.capRec[n].window = 0#4) (e : Int) :
    phaseResult n e s = s.setCap n { s.cap[n] with phase := some e } := if_pos hw

section
variable {n : Fin 4} {e : Int} {s : State} (hw : s.capRec[n].window ≠ 0#4)
include hw

/-- The flag is the result of the test; the alarm is raised when a set flag falls. -/
theorem phaseResult_of_window :
    phaseResult n e s =
      raiseIf (s.cap[n].inWindow && !decide (e.natAbs ≤ halfWidth s.capRec[n].window)) (.phaseAlarm n)
        (s.setCap n
          { s.cap[n] with phase := some e, inWindow := decide (e.natAbs ≤ halfWidth s.capRec[n].window) }) :=
  if_neg hw

theorem phaseResult_of_inside (he : e.natAbs ≤ halfWidth s.capRec[n].window) :
    phaseResult n e s = s.setCap n { s.cap[n] with phase := some e, inWindow := true } := by
  simp only [phaseResult_of_window hw, decide_eq_true he, Bool.not_true, Bool.and_false, raiseIf_false]

theorem phaseResult_of_outside (he : halfWidth s.capRec[n].window < e.natAbs) :
    phaseResult n e s =
      raiseIf s.cap[n].inWindow (.phaseAlarm n)
        (s.setCap n { s.cap[n] with phase := some e, inWindow := false }) := by
  simp only [phaseResult_of_window hw, decide_eq_false (Nat.not_le.mpr he), Bool.not_false, Bool.and_true]

end

/-- Settles O51: a stamp that is compared goes to the window test, whose cases are the rows of R189. -/
theorem phaseAlarmOnLeavingWindow : Obligations.PhaseAlarmOnLeavingWindow := by
  intro n st s x w
  refine ⟨fun hb => comparePhase_of_unbound hb st, fun c hb => ?_⟩
  intro r e
  refine ⟨comparePhase_of_excluded hb, fun hmode hstep => ?_⟩
  have compared : comparePhase n st s = phaseResult n e s := comparePhase_of_compared hb hmode hstep
  rw [compared]
  refine ⟨fun hw => phaseResult_of_no_window hw e, phaseResult_of_inside, fun hw he hin => ?_, fun hw he hout => ?_⟩
  · rw [phaseResult_of_outside hw he, hin, raiseIf_true]
  · rw [phaseResult_of_outside hw he, hout, raiseIf_false]

end Sys2Proof.Machine
end

section
/-!
PROOFS. Frames: what each operation of the model can change, said once for all fields. `State.sameBut` names the fields
that may change; `State.evolves` adds what notices do to the queues and the event groups.
-/

namespace Sys2Proof.Machine

/-! ### The fields of the state -/

/-- The fields of the state but for the ports, the event groups and the notification sequence, which nearly every
operation can reach by raising an event. -/
inductive Field where
  | pending | station | departing | classify | residence | copies | sources | exch | time | elapsed | elapsedRem
  | prevTime | prevTime2 | steps | servoCfg | servo | clock | banks | active | switch | cad | ser | pins | view
  | capRec | cap | requests | managers | civil | restart | notifyCfg
  deriving DecidableEq

/-- The type of a field. -/
def Field.Val : Field → Type
  | .pending => List Instr
  | .station => Addr
  | .departing => List Departure
  | .classify => Vector ClassEntry 32
  | .residence => List ResRec
  | .copies => List Copy
  | .sources => Vector (Option SourceRec) 8
  | .exch => Exchange
  | .time => TimeVal
  | .elapsed => Elapsed
  | .elapsedRem => BitVec 24
  | .prevTime => Nat
  | .prevTime2 => Nat
  | .steps => List StepReq
  | .servoCfg => ServoCfg
  | .servo => Servo
  | .clock => ClockState
  | .banks => Vector Bank 4
  | .active => Fin 4
  | .switch => Option SwitchReq
  | .cad => Vector CadRun 8
  | .ser => Vector Serializer 2
  | .pins => Vector Bool 12
  | .view => Option TickView
  | .capRec => Vector CapRec 4
  | .cap => Vector CapLine 4
  | .requests => List Request
  | .managers => Vector Addr 4
  | .civil => Int
  | .restart => RestartState
  | .notifyCfg => Vector NotifyCfg 4

/-- The value of a field. -/
def Field.get : (f : Field) → State → f.Val
  | .pending, s => s.pending
  | .station, s => s.station
  | .departing, s => s.departing
  | .classify, s => s.classify
  | .residence, s => s.residence
  | .copies, s => s.copies
  | .sources, s => s.sources
  | .exch, s => s.exch
  | .time, s => s.time
  | .elapsed, s => s.elapsed
  | .elapsedRem, s => s.elapsedRem
  | .prevTime, s => s.prevTime
  | .prevTime2, s => s.prevTime2
  | .steps, s => s.steps
  | .servoCfg, s => s.servoCfg
  | .servo, s => s.servo
  | .clock, s => s.clock
  | .banks, s => s.banks
  | .active, s => s.active
  | .switch, s => s.switch
  | .cad, s => s.cad
  | .ser, s => s.ser
  | .pins, s => s.pins
  | .view, s => s.view
  | .capRec, s => s.capRec
  | .cap, s => s.cap
  | .requests, s => s.requests
  | .managers, s => s.managers
  | .civil, s => s.civil
  | .restart, s => s.restart
  | .notifyCfg, s => s.notifyCfg

/-- Of the fields, only those in `F` may differ. -/
def State.sameBut (s : State) (F : List Field) (t : State) : Prop := ∀ f : Field, f ∉ F → f.get t = f.get s

theorem State.sameBut.refl (s : State) (F : List Field) : s.sameBut F s := fun _ _ => rfl

theorem State.sameBut.trans {s t u : State} {F : List Field} (h : s.sameBut F t) (k : t.sameBut F u) :
    s.sameBut F u := fun f hf => (k f hf).trans (h f hf)

theorem State.sameBut.mono {s t : State} {F G : List Field} (h : s.sameBut F t) (hFG : F ⊆ G) : s.sameBut G t :=
  fun f hf => h f fun hm => hf (hFG hm)

/-! ### What notices do to the queues -/

/-- Frames have joined the queues of a port at their tails, none while it is DOWN, and none beyond the capacities. -/
def PortState.joinedBy (x y : PortState) : Prop :=
  ∃ tq oq, y = { x with timingQ := x.timingQ ++ tq, ordinaryQ := x.ordinaryQ ++ oq } ∧
    (x.link = .down → tq = [] ∧ oq = []) ∧ (x.timingQ.length ≤ 8 → (x.timingQ ++ tq).length ≤ 8) ∧
    (x.ordinaryQ.length ≤ 32 → (x.ordinaryQ ++ oq).length ≤ 32)

theorem PortState.joinedBy.refl (x : PortState) : x.joinedBy x :=
  ⟨[], [], by simp, by simp, by simp, by simp⟩

theorem PortState.joinedBy.trans {x y z : PortState} (h : x.joinedBy y) (k : y.joinedBy z) : x.joinedBy z := by
  obtain ⟨tq, oq, rfl, hd, ht, ho⟩ := h
  obtain ⟨tq', oq', rfl, hd', ht', ho'⟩ := k
  refine ⟨tq ++ tq', oq ++ oq', by simp, fun hx => ?_, fun hx => ?_, fun hx => ?_⟩
  · simp [hd hx, hd' hx]
  · simpa using ht' (ht hx)
  · simpa using ho' (ho hx)

/-- `t` differs from `s` in the fields of `F`, in frames that joined queues, in the groups and in the notification
sequence alone, and the groups keep R204's clear flag in IDLE. -/
structure State.evolves (s : State) (F : List Field) (t : State) : Prop where
  same : s.sameBut F t
  portN : s.portN.joinedBy t.portN
  portD : s.portD.joinedBy t.portD
  groups : s.groupsOk → t.groupsOk

theorem State.evolves.refl (s : State) (F : List Field) : s.evolves F s :=
  ⟨.refl s F, .refl _, .refl _, id⟩

theorem State.evolves.trans {s t u : State} {F : List Field} (h : s.evolves F t) (k : t.evolves F u) :
    s.evolves F u :=
  ⟨h.same.trans k.same, h.portN.trans k.portN, h.portD.trans k.portD, k.groups ∘ h.groups⟩

theorem State.evolves.mono {s t : State} {F G : List Field} (h : s.evolves F t) (hFG : F ⊆ G) : s.evolves G t :=
  ⟨h.same.mono hFG, h.portN, h.portD, h.groups⟩

theorem State.evolves.ite {s t u : State} {F : List Field} {c : Prop} [Decidable c] (ht : s.evolves F t)
    (hu : s.evolves F u) : s.evolves F (if c then t else u) := by
  split
  · exact ht
  · exact hu

/-- A change of fields alone. -/
theorem State.sameBut.evolves {s t : State} {F : List Field} (h : s.sameBut F t) (hn : t.portN = s.portN)
    (hd : t.portD = s.portD) (hg : t.groups = s.groups) : s.evolves F t :=
  ⟨h, hn ▸ .refl _, hd ▸ .refl _, fun hs g => by simpa only [hg] using hs g⟩

theorem State.evolves.foldl {α : Type} {F : List Field} {f : State → α → State}
    (hf : ∀ (s : State) (a : α), s.evolves F (f s a)) (l : List α) (s : State) : s.evolves F (l.foldl f s) := by
  induction l generalizing s with
  | nil => exact .refl s F
  | cons a l ih => exact (hf s a).trans (ih _)

theorem State.sameBut.foldl {α : Type} {F : List Field} {f : State → α → State}
    (hf : ∀ (s : State) (a : α), s.sameBut F (f s a)) (l : List α) (s : State) : s.sameBut F (l.foldl f s) := by
  induction l generalizing s with
  | nil => exact .refl s F
  | cons a l ih => exact (hf s a).trans (ih _)

/-! ### What a set entry reads as, at every index -/

theorem State.setCad_get (s : State) (n : Fin 8) (x : CadRun) (i : Fin 8) :
    (s.setCad n x).cad[i] = if i = n then x else s.cad[i] := by
  simp only [State.setCad, Fin.getElem_fin, Vector.getElem_set, Fin.ext_iff, eq_comm]

theorem State.setSer_get (s : State) (m : Fin 2) (x : Serializer) (i : Fin 2) :
    (s.setSer m x).ser[i] = if i = m then x else s.ser[i] := by
  simp only [State.setSer, Fin.getElem_fin, Vector.getElem_set, Fin.ext_iff, eq_comm]

theorem State.setCap_get (s : State) (n : Fin 4) (x : CapLine) (i : Fin 4) :
    (s.setCap n x).cap[i] = if i = n then x else s.cap[i] := by
  simp only [State.setCap, Fin.getElem_fin, Vector.getElem_set, Fin.ext_iff, eq_comm]

theorem State.setGroup_get (s : State) (g : Fin 4) (x : Group) (i : Fin 4) :
    (s.setGroup g x).groups[i] = if i = g then x else s.groups[i] := by
  simp only [State.setGroup, Fin.getElem_fin, Vector.getElem_set, Fin.ext_iff, eq_comm]

theorem State.setSource_get (s : State) (n : Fin 8) (x : Option SourceRec) (i : Fin 8) :
    (s.setSource n x).sources[i] = if i = n then x else s.sources[i] := by
  simp only [State.setSource, Fin.getElem_fin, Vector.getElem_set, Fin.ext_iff, eq_comm]

/-! ### Updates of one field -/

theorem State.setCad_evolves (s : State) (n : Fin 8) (x : CadRun) : s.evolves [.cad] (s.setCad n x) :=
  State.sameBut.evolves (fun f hf => by cases f <;> simp at hf <;> rfl) rfl rfl rfl

theorem State.setSer_evolves (s : State) (m : Fin 2) (x : Serializer) : s.evolves [.ser] (s.setSer m x) :=
  State.sameBut.evolves (fun f hf => by cases f <;> simp at hf <;> rfl) rfl rfl rfl

theorem State.setCap_evolves (s : State) (n : Fin 4) (x : CapLine) : s.evolves [.cap] (s.setCap n x) :=
  State.sameBut.evolves (fun f hf => by cases f <;> simp at hf <;> rfl) rfl rfl rfl

theorem State.setSource_evolves (s : State) (i : Fin 8) (x : Option SourceRec) :
    s.evolves [.sources] (s.setSource i x) :=
  State.sameBut.evolves (fun f hf => by cases f <;> simp at hf <;> rfl) rfl rfl rfl

theorem State.setGroup_evolves {s : State} {g : Fin 4} {x : Group}
    (hx : s.groupsOk → x.st = .idle → x.reported = false) : s.evolves [] (s.setGroup g x) := by
  refine ⟨fun f _ => by cases f <;> rfl, .refl _, .refl _, fun hs i hi => ?_⟩
  rw [State.setGroup_get] at hi ⊢
  split at hi
  · rename_i h
    rw [if_pos h]
    exact hx hs hi
  · rename_i h
    rw [if_neg h]
    exact hs i hi

theorem State.setPort_sameBut (s : State) (p : Port) (x : PortState) : s.sameBut [] (s.setPort p x) := by
  intro f _
  cases p <;> cases f <;> rfl

/-! ### Arrival at a queue and raising an event -/

theorem PortState.joinedBy_setQueue {x : PortState} {c : TClass} (e : EgressEntry) (hl : x.link ≠ .down)
    (hq : (x.queue c).length < queueCap c) : x.joinedBy (x.setQueue c (x.queue c ++ [e])) := by
  cases c
  · refine ⟨[], [e], by simp [PortState.setQueue, PortState.queue], fun h => absurd h hl, by simp, fun _ => ?_⟩
    simpa [PortState.queue, queueCap, Nat.succ_le_iff] using hq
  · refine ⟨[e], [], by simp [PortState.setQueue, PortState.queue], fun h => absurd h hl, fun _ => ?_, by simp⟩
    simpa [PortState.queue, queueCap, Nat.succ_le_iff] using hq

theorem State.setPort_evolves {s : State} {p : Port} {x : PortState} (h : (s.port p).joinedBy x) :
    s.evolves [] (s.setPort p x) := by
  cases p
  · exact ⟨s.setPort_sameBut .n x, h, .refl _, id⟩
  · exact ⟨s.setPort_sameBut .d x, .refl _, h, id⟩

theorem arriveWith_evolves {drop : Event → State → State} (hd : ∀ (e : Event) (s : State), s.evolves [] (drop e s)) (p : Port) (c : TClass)
    (e : EgressEntry) (s : State) : s.evolves [] (arriveWith drop p c e s) := by
  unfold arriveWith
  dsimp only
  split
  · exact .refl s _
  · rename_i hl
    split
    · rename_i hq
      exact State.setPort_evolves (PortState.joinedBy_setQueue e hl hq)
    · exact hd _ _

theorem notifyWith_evolves {drop : Event → State → State} (hd : ∀ (e : Event) (s : State), s.evolves [] (drop e s)) (g : Fin 4)
    (dst : Addr) (s : State) : s.evolves [] (notifyWith drop g dst s) := by
  have hseq : s.evolves [] { s with notifySeq := s.notifySeq + 1 } :=
    State.sameBut.evolves (fun f _ => by cases f <;> rfl) rfl rfl rfl
  exact hseq.trans (arriveWith_evolves hd _ _ _ _)

theorem groupActWith_evolves {drop : Event → State → State} (hd : ∀ (e : Event) (s : State), s.evolves [] (drop e s)) (g : Fin 4)
    (s : State) : s.evolves [] (groupActWith drop g s) := by
  unfold groupActWith
  split
  · exact .refl s _
  · split
    · exact notifyWith_evolves hd _ _ _
    · exact (State.setGroup_evolves (by simp)).trans (notifyWith_evolves hd _ _ _)
  · rename_i hst
    exact State.setGroup_evolves fun _ h => nomatch hst.symm.trans h

theorem raiseDepth_evolves (n : Nat) : ∀ (e : Event) (s : State), s.evolves [] (raiseDepth n e s) := by
  induction n with
  | zero => exact fun e s => .refl s _
  | succ n ih =>
    intro e s
    have hset : s.evolves []
        (s.setGroup e.group { s.groups[e.group] with pending := s.groups[e.group].pending ||| posMask e.pos }) :=
      State.setGroup_evolves fun hs => hs e.group
    unfold raiseDepth
    dsimp only
    split
    · exact .refl s _
    · split
      · exact hset.trans (groupActWith_evolves ih _ _)
      · exact hset

theorem raise_evolves (e : Event) (s : State) : s.evolves [] (raise e s) := raiseDepth_evolves 4 e s

theorem raiseIf_evolves (c : Bool) (e : Event) (s : State) : s.evolves [] (raiseIf c e s) := by
  cases c
  · exact .refl s _
  · exact raise_evolves e s

theorem arrive_evolves (p : Port) (c : TClass) (e : EgressEntry) (s : State) : s.evolves [] (arrive p c e s) :=
  arriveWith_evolves raise_evolves p c e s

/-! ### The fields after an event, an arrival and a conditional event -/

@[simp] theorem raise_pending (e : Event) (s : State) : (raise e s).pending = s.pending :=
  (raise_evolves e s).same .pending (by decide)
@[simp] theorem raise_station (e : Event) (s : State) : (raise e s).station = s.station :=
  (raise_evolves e s).same .station (by decide)
@[simp] theorem raise_departing (e : Event) (s : State) : (raise e s).departing = s.departing :=
  (raise_evolves e s).same .departing (by decide)
@[simp] theorem raise_classify (e : Event) (s : State) : (raise e s).classify = s.classify :=
  (raise_evolves e s).same .classify (by decide)
@[simp] theorem raise_residence (e : Event) (s : State) : (raise e s).residence = s.residence :=
  (raise_evolves e s).same .residence (by decide)
@[simp] theorem raise_copies (e : Event) (s : State) : (raise e s).copies = s.copies :=
  (raise_evolves e s).same .copies (by decide)
@[simp] theorem raise_sources (e : Event) (s : State) : (raise e s).sources = s.sources :=
  (raise_evolves e s).same .sources (by decide)
@[simp] theorem raise_exch (e : Event) (s : State) : (raise e s).exch = s.exch :=
  (raise_evolves e s).same .exch (by decide)
@[simp] theorem raise_time (e : Event) (s : State) : (raise e s).time = s.time :=
  (raise_evolves e s).same .time (by decide)
@[simp] theorem raise_elapsed (e : Event) (s : State) : (raise e s).elapsed = s.elapsed :=
  (raise_evolves e s).same .elapsed (by decide)
@[simp] theorem raise_elapsedRem (e : Event) (s : State) : (raise e s).elapsedRem = s.elapsedRem :=
  (raise_evolves e s).same .elapsedRem (by decide)
@[simp] theorem raise_prevTime (e : Event) (s : State) : (raise e s).prevTime = s.prevTime :=
  (raise_evolves e s).same .prevTime (by decide)
@[simp] theorem raise_prevTime2 (e : Event) (s : State) : (raise e s).prevTime2 = s.prevTime2 :=
  (raise_evolves e s).same .prevTime2 (by decide)
@[simp] theorem raise_steps (e : Event) (s : State) : (raise e s).steps = s.steps :=
  (raise_evolves e s).same .steps (by decide)
@[simp] theorem raise_servoCfg (e : Event) (s : State) : (raise e s).servoCfg = s.servoCfg :=
  (raise_evolves e s).same .servoCfg (by decide)
@[simp] theorem raise_servo (e : Event) (s : State) : (raise e s).servo = s.servo :=
  (raise_evolves e s).same .servo (by decide)
@[simp] theorem raise_clock (e : Event) (s : State) : (raise e s).clock = s.clock :=
  (raise_evolves e s).same .clock (by decide)
@[simp] theorem raise_banks (e : Event) (s : State) : (raise e s).banks = s.banks :=
  (raise_evolves e s).same .banks (by decide)
@[simp] theorem raise_active (e : Event) (s : State) : (raise e s).active = s.active :=
  (raise_evolves e s).same .active (by decide)
@[simp] theorem raise_switch (e : Event) (s : State) : (raise e s).switch = s.switch :=
  (raise_evolves e s).same .switch (by decide)
@[simp] theorem raise_cad (e : Event) (s : State) : (raise e s).cad = s.cad :=
  (raise_evolves e s).same .cad (by decide)
@[simp] theorem raise_ser (e : Event) (s : State) : (raise e s).ser = s.ser :=
  (raise_evolves e s).same .ser (by decide)
@[simp] theorem raise_pins (e : Event) (s : State) : (raise e s).pins = s.pins :=
  (raise_evolves e s).same .pins (by decide)
@[simp] theorem raise_view (e : Event) (s : State) : (raise e s).view = s.view :=
  (raise_evolves e s).same .view (by decide)
@[simp] theorem raise_capRec (e : Event) (s : State) : (raise e s).capRec = s.capRec :=
  (raise_evolves e s).same .capRec (by decide)
@[simp] theorem raise_cap (e : Event) (s : State) : (raise e s).cap = s.cap :=
  (raise_evolves e s).same .cap (by decide)
@[simp] theorem raise_requests (e : Event) (s : State) : (raise e s).requests = s.requests :=
  (raise_evolves e s).same .requests (by decide)
@[simp] theorem raise_managers (e : Event) (s : State) : (raise e s).managers = s.managers :=
  (raise_evolves e s).same .managers (by decide)
@[simp] theorem raise_civil (e : Event) (s : State) : (raise e s).civil = s.civil :=
  (raise_evolves e s).same .civil (by decide)
@[simp] theorem raise_restart (e : Event) (s : State) : (raise e s).restart = s.restart :=
  (raise_evolves e s).same .restart (by decide)
@[simp] theorem raise_notifyCfg (e : Event) (s : State) : (raise e s).notifyCfg = s.notifyCfg :=
  (raise_evolves e s).same .notifyCfg (by decide)

@[simp] theorem raiseIf_pending (c : Bool) (e : Event) (s : State) : (raiseIf c e s).pending = s.pending :=
  (raiseIf_evolves c e s).same .pending (by decide)
@[simp] theorem raiseIf_station (c : Bool) (e : Event) (s : State) : (raiseIf c e s).station = s.station :=
  (raiseIf_evolves c e s).same .station (by decide)
@[simp] theorem raiseIf_departing (c : Bool) (e : Event) (s : State) : (raiseIf c e s).departing = s.departing :=
  (raiseIf_evolves c e s).same .departing (by decide)
@[simp] theorem raiseIf_classify (c : Bool) (e : Event) (s : State) : (raiseIf c e s).classify = s.classify :=
  (raiseIf_evolves c e s).same .classify (by decide)
@[simp] theorem raiseIf_residence (c : Bool) (e : Event) (s : State) : (raiseIf c e s).residence = s.residence :=
  (raiseIf_evolves c e s).same .residence (by decide)
@[simp] theorem raiseIf_copies (c : Bool) (e : Event) (s : State) : (raiseIf c e s).copies = s.copies :=
  (raiseIf_evolves c e s).same .copies (by decide)
@[simp] theorem raiseIf_sources (c : Bool) (e : Event) (s : State) : (raiseIf c e s).sources = s.sources :=
  (raiseIf_evolves c e s).same .sources (by decide)
@[simp] theorem raiseIf_exch (c : Bool) (e : Event) (s : State) : (raiseIf c e s).exch = s.exch :=
  (raiseIf_evolves c e s).same .exch (by decide)
@[simp] theorem raiseIf_time (c : Bool) (e : Event) (s : State) : (raiseIf c e s).time = s.time :=
  (raiseIf_evolves c e s).same .time (by decide)
@[simp] theorem raiseIf_elapsed (c : Bool) (e : Event) (s : State) : (raiseIf c e s).elapsed = s.elapsed :=
  (raiseIf_evolves c e s).same .elapsed (by decide)
@[simp] theorem raiseIf_elapsedRem (c : Bool) (e : Event) (s : State) : (raiseIf c e s).elapsedRem = s.elapsedRem :=
  (raiseIf_evolves c e s).same .elapsedRem (by decide)
@[simp] theorem raiseIf_prevTime (c : Bool) (e : Event) (s : State) : (raiseIf c e s).prevTime = s.prevTime :=
  (raiseIf_evolves c e s).same .prevTime (by decide)
@[simp] theorem raiseIf_prevTime2 (c : Bool) (e : Event) (s : State) : (raiseIf c e s).prevTime2 = s.prevTime2 :=
  (raiseIf_evolves c e s).same .prevTime2 (by decide)
@[simp] theorem raiseIf_steps (c : Bool) (e : Event) (s : State) : (raiseIf c e s).steps = s.steps :=
  (raiseIf_evolves c e s).same .steps (by decide)
@[simp] theorem raiseIf_servoCfg (c : Bool) (e : Event) (s : State) : (raiseIf c e s).servoCfg = s.servoCfg :=
  (raiseIf_evolves c e s).same .servoCfg (by decide)
@[simp] theorem raiseIf_servo (c : Bool) (e : Event) (s : State) : (raiseIf c e s).servo = s.servo :=
  (raiseIf_evolves c e s).same .servo (by decide)
@[simp] theorem raiseIf_clock (c : Bool) (e : Event) (s : State) : (raiseIf c e s).clock = s.clock :=
  (raiseIf_evolves c e s).same .clock (by decide)
@[simp] theorem raiseIf_banks (c : Bool) (e : Event) (s : State) : (raiseIf c e s).banks = s.banks :=
  (raiseIf_evolves c e s).same .banks (by decide)
@[simp] theorem raiseIf_active (c : Bool) (e : Event) (s : State) : (raiseIf c e s).active = s.active :=
  (raiseIf_evolves c e s).same .active (by decide)
@[simp] theorem raiseIf_switch (c : Bool) (e : Event) (s : State) : (raiseIf c e s).switch = s.switch :=
  (raiseIf_evolves c e s).same .switch (by decide)
@[simp] theorem raiseIf_cad (c : Bool) (e : Event) (s : State) : (raiseIf c e s).cad = s.cad :=
  (raiseIf_evolves c e s).same .cad (by decide)
@[simp] theorem raiseIf_ser (c : Bool) (e : Event) (s : State) : (raiseIf c e s).ser = s.ser :=
  (raiseIf_evolves c e s).same .ser (by decide)
@[simp] theorem raiseIf_pins (c : Bool) (e : Event) (s : State) : (raiseIf c e s).pins = s.pins :=
  (raiseIf_evolves c e s).same .pins (by decide)
@[simp] theorem raiseIf_view (c : Bool) (e : Event) (s : State) : (raiseIf c e s).view = s.view :=
  (raiseIf_evolves c e s).same .view (by decide)
@[simp] theorem raiseIf_capRec (c : Bool) (e : Event) (s : State) : (raiseIf c e s).capRec = s.capRec :=
  (raiseIf_evolves c e s).same .capRec (by decide)
@[simp] theorem raiseIf_cap (c : Bool) (e : Event) (s : State) : (raiseIf c e s).cap = s.cap :=
  (raiseIf_evolves c e s).same .cap (by decide)
@[simp] theorem raiseIf_requests (c : Bool) (e : Event) (s : State) : (raiseIf c e s).requests = s.requests :=
  (raiseIf_evolves c e s).same .requests (by decide)
@[simp] theorem raiseIf_managers (c : Bool) (e : Event) (s : State) : (raiseIf c e s).managers = s.managers :=
  (raiseIf_evolves c e s).same .managers (by decide)
@[simp] theorem raiseIf_civil (c : Bool) (e : Event) (s : State) : (raiseIf c e s).civil = s.civil :=
  (raiseIf_evolves c e s).same .civil (by decide)
@[simp] theorem raiseIf_restart (c : Bool) (e : Event) (s : State) : (raiseIf c e s).restart = s.restart :=
  (raiseIf_evolves c e s).same .restart (by decide)
@[simp] theorem raiseIf_notifyCfg (c : Bool) (e : Event) (s : State) : (raiseIf c e s).notifyCfg = s.notifyCfg :=
  (raiseIf_evolves c e s).same .notifyCfg (by decide)

@[simp] theorem arrive_pending (p : Port) (c : TClass) (e : EgressEntry) (s : State) : (arrive p c e s).pending = s.pending :=
  (arrive_evolves p c e s).same .pending (by decide)
@[simp] theorem arrive_station (p : Port) (c : TClass) (e : EgressEntry) (s : State) : (arrive p c e s).station = s.station :=
  (arrive_evolves p c e s).same .station (by decide)
@[simp] theorem arrive_departing (p : Port) (c : TClass) (e : EgressEntry) (s : State) : (arrive p c e s).departing = s.departing :=
  (arrive_evolves p c e s).same .departing (by decide)
@[simp] theorem arrive_classify (p : Port) (c : TClass) (e : EgressEntry) (s : State) : (arrive p c e s).classify = s.classify :=
  (arrive_evolves p c e s).same .classify (by decide)
@[simp] theorem arrive_residence (p : Port) (c : TClass) (e : EgressEntry) (s : State) : (arrive p c e s).residence = s.residence :=
  (arrive_evolves p c e s).same .residence (by decide)
@[simp] theorem arrive_copies (p : Port) (c : TClass) (e : EgressEntry) (s : State) : (arrive p c e s).copies = s.copies :=
  (arrive_evolves p c e s).same .copies (by decide)
@[simp] theorem arrive_sources (p : Port) (c : TClass) (e : EgressEntry) (s : State) : (arrive p c e s).sources = s.sources :=
  (arrive_evolves p c e s).same .sources (by decide)
@[simp] theorem arrive_exch (p : Port) (c : TClass) (e : EgressEntry) (s : State) : (arrive p c e s).exch = s.exch :=
  (arrive_evolves p c e s).same .exch (by decide)
@[simp] theorem arrive_time (p : Port) (c : TClass) (e : EgressEntry) (s : State) : (arrive p c e s).time = s.time :=
  (arrive_evolves p c e s).same .time (by decide)
@[simp] theorem arrive_elapsed (p : Port) (c : TClass) (e : EgressEntry) (s : State) : (arrive p c e s).elapsed = s.elapsed :=
  (arrive_evolves p c e s).same .elapsed (by decide)
@[simp] theorem arrive_elapsedRem (p : Port) (c : TClass) (e : EgressEntry) (s : State) : (arrive p c e s).elapsedRem = s.elapsedRem :=
  (arrive_evolves p c e s).same .elapsedRem (by decide)
@[simp] theorem arrive_prevTime (p : Port) (c : TClass) (e : EgressEntry) (s : State) : (arrive p c e s).prevTime = s.prevTime :=
  (arrive_evolves p c e s).same .prevTime (by decide)
@[simp] theorem arrive_prevTime2 (p : Port) (c : TClass) (e : EgressEntry) (s : State) : (arrive p c e s).prevTime2 = s.prevTime2 :=
  (arrive_evolves p c e s).same .prevTime2 (by decide)
@[simp] theorem arrive_steps (p : Port) (c : TClass) (e : EgressEntry) (s : State) : (arrive p c e s).steps = s.steps :=
  (arrive_evolves p c e s).same .steps (by decide)
@[simp] theorem arrive_servoCfg (p : Port) (c : TClass) (e : EgressEntry) (s : State) : (arrive p c e s).servoCfg = s.servoCfg :=
  (arrive_evolves p c e s).same .servoCfg (by decide)
@[simp] theorem arrive_servo (p : Port) (c : TClass) (e : EgressEntry) (s : State) : (arrive p c e s).servo = s.servo :=
  (arrive_evolves p c e s).same .servo (by decide)
@[simp] theorem arrive_clock (p : Port) (c : TClass) (e : EgressEntry) (s : State) : (arrive p c e s).clock = s.clock :=
  (arrive_evolves p c e s).same .clock (by decide)
@[simp] theorem arrive_banks (p : Port) (c : TClass) (e : EgressEntry) (s : State) : (arrive p c e s).banks = s.banks :=
  (arrive_evolves p c e s).same .banks (by decide)
@[simp] theorem arrive_active (p : Port) (c : TClass) (e : EgressEntry) (s : State) : (arrive p c e s).active = s.active :=
  (arrive_evolves p c e s).same .active (by decide)
@[simp] theorem arrive_switch (p : Port) (c : TClass) (e : EgressEntry) (s : State) : (arrive p c e s).switch = s.switch :=
  (arrive_evolves p c e s).same .switch (by decide)
@[simp] theorem arrive_cad (p : Port) (c : TClass) (e : EgressEntry) (s : State) : (arrive p c e s).cad = s.cad :=
  (arrive_evolves p c e s).same .cad (by decide)
@[simp] theorem arrive_ser (p : Port) (c : TClass) (e : EgressEntry) (s : State) : (arrive p c e s).ser = s.ser :=
  (arrive_evolves p c e s).same .ser (by decide)
@[simp] theorem arrive_pins (p : Port) (c : TClass) (e : EgressEntry) (s : State) : (arrive p c e s).pins = s.pins :=
  (arrive_evolves p c e s).same .pins (by decide)
@[simp] theorem arrive_view (p : Port) (c : TClass) (e : EgressEntry) (s : State) : (arrive p c e s).view = s.view :=
  (arrive_evolves p c e s).same .view (by decide)
@[simp] theorem arrive_capRec (p : Port) (c : TClass) (e : EgressEntry) (s : State) : (arrive p c e s).capRec = s.capRec :=
  (arrive_evolves p c e s).same .capRec (by decide)
@[simp] theorem arrive_cap (p : Port) (c : TClass) (e : EgressEntry) (s : State) : (arrive p c e s).cap = s.cap :=
  (arrive_evolves p c e s).same .cap (by decide)
@[simp] theorem arrive_requests (p : Port) (c : TClass) (e : EgressEntry) (s : State) : (arrive p c e s).requests = s.requests :=
  (arrive_evolves p c e s).same .requests (by decide)
@[simp] theorem arrive_managers (p : Port) (c : TClass) (e : EgressEntry) (s : State) : (arrive p c e s).managers = s.managers :=
  (arrive_evolves p c e s).same .managers (by decide)
@[simp] theorem arrive_civil (p : Port) (c : TClass) (e : EgressEntry) (s : State) : (arrive p c e s).civil = s.civil :=
  (arrive_evolves p c e s).same .civil (by decide)
@[simp] theorem arrive_restart (p : Port) (c : TClass) (e : EgressEntry) (s : State) : (arrive p c e s).restart = s.restart :=
  (arrive_evolves p c e s).same .restart (by decide)
@[simp] theorem arrive_notifyCfg (p : Port) (c : TClass) (e : EgressEntry) (s : State) : (arrive p c e s).notifyCfg = s.notifyCfg :=
  (arrive_evolves p c e s).same .notifyCfg (by decide)

theorem respond_evolves (r : Request) (a : Reply) : a.after.evolves [] (respond r a) := arrive_evolves _ _ _ _

theorem endHoldoff_evolves (g : Fin 4) (s : State) : s.evolves [] (endHoldoff g s) := by
  unfold endHoldoff
  split
  · exact .refl s _
  · split
    · exact .refl s _
    · split
      · exact (State.setGroup_evolves (by simp)).trans (notifyWith_evolves raise_evolves _ _ _)
      · exact State.setGroup_evolves (by simp)

end Sys2Proof.Machine
end

section
/-!
PROOFS. What each operation of the blocks can change: one lemma per operation over the fields of `Field`.
-/

namespace Sys2Proof.Machine

/-! ### Serializers and the outputs of a tick -/

theorem tellSerializer_evolves (n : Fin 8) (k e : Nat) (m : Fin 2) (s : State) :
    s.evolves [.ser] (tellSerializer n k e m s) := by
  unfold tellSerializer
  dsimp only
  split
  · exact .refl s _
  · split
    · exact (raise_evolves _ s).mono (by decide)
    · exact s.setSer_evolves m _

theorem tellEdge_evolves (n : Fin 8) (k e : Nat) (s : State) : s.evolves [.ser] (tellEdge n k e s) :=
  State.evolves.foldl (fun t m => tellSerializer_evolves n k e m t) bothSer s

theorem showOutputs_evolves (v : TickView) (s : State) : s.evolves [.ser, .pins, .view] (showOutputs v s) :=
  State.sameBut.evolves (fun f hf => by cases f <;> simp at hf <;> rfl) rfl rfl rfl

theorem settleTick_evolves (s : State) : s.evolves [.ser, .pins, .view] (settleTick s) := by
  obtain ⟨_, h⟩ | ⟨_, _, _, h⟩ | ⟨v, _, _, h⟩ := settleTick_cases s
  · rw [h]
    exact .refl s _
  · rw [h]
    exact .refl s _
  · rw [h]
    exact showOutputs_evolves v s

theorem endEvent_evolves (s t : State) : t.evolves [.ser, .pins, .view] (endEvent s t) := by
  have hview : t.evolves [.ser, .pins, .view] { t with view := t.view.map (TickView.follow s t) } :=
    State.sameBut.evolves (fun f hf => by cases f <;> simp at hf <;> rfl) rfl rfl rfl
  exact hview.trans (settleTick_evolves _)

theorem completeWord_evolves (m : Fin 2) (s : State) : s.evolves [.ser] (completeWord m s) := by
  unfold completeWord
  split
  · split
    · exact s.setSer_evolves m _
    · exact .refl s _
  · exact .refl s _

/-! ### Cadences and the bank switch -/

theorem restartCad_evolves (n : Fin 8) (r : CadRec) (least : Nat) (s : State) :
    s.evolves [.cad] (restartCad n r least s) := s.setCad_evolves n _

theorem startWaiting_evolves (s : State) : s.evolves [.cad] (startWaiting s) := by
  refine State.evolves.foldl (fun t n => ?_) allCad s
  split
  · exact t.setCad_evolves n _
  · exact .refl t _

theorem produceEdge_evolves (n : Fin 8) (k t : Nat) (next : CadState) (s : State) :
    s.evolves [.cad, .ser] (produceEdge n k t next s) :=
  ((s.setCad_evolves n _).mono (by decide)).trans ((tellEdge_evolves n k t _).mono (by decide))

theorem switchCad_evolves (out inc : Bank) (least : Nat) (n : Fin 8) (s : State) :
    s.evolves [.cad] (switchCad out inc least n s) := by
  unfold switchCad
  split
  · exact .refl s _
  · exact restartCad_evolves n _ least s

theorem switchSer_evolves (out inc : Bank) (m : Fin 2) (s : State) : s.evolves [.ser] (switchSer out inc m s) := by
  unfold switchSer
  dsimp only
  split
  · exact s.setSer_evolves m _
  · split
    · exact s.setSer_evolves m _
    · exact .refl s _

/-- The cadences and the serializers at a switch, before the target becomes active. -/
def switchedUnits (target : Fin 4) (at_ before : Nat) (s : State) : State :=
  bothSer.foldl (fun t m => switchSer s.bank s.banks[target] m t)
    (allCad.foldl (fun t n => switchCad s.bank s.banks[target] (atOrAfter at_ before) n t) s)

theorem makeSwitch_eq (target : Fin 4) (at_ before : Nat) (s : State) :
    makeSwitch target at_ before s =
      raise .bankSwitched { switchedUnits target at_ before s with active := target, switch := none } := rfl

theorem switchedUnits_evolves (target : Fin 4) (at_ before : Nat) (s : State) :
    s.evolves [.cad, .ser] (switchedUnits target at_ before s) :=
  ((State.evolves.foldl (fun t n => switchCad_evolves _ _ _ n t) allCad s).mono (by decide)).trans
    ((State.evolves.foldl (fun t m => switchSer_evolves _ _ m t) bothSer _).mono (by decide))

theorem makeSwitch_evolves (target : Fin 4) (at_ before : Nat) (s : State) :
    s.evolves [.cad, .ser, .active, .switch] (makeSwitch target at_ before s) := by
  have hset : (switchedUnits target at_ before s).evolves [.cad, .ser, .active, .switch]
      { switchedUnits target at_ before s with active := target, switch := none } :=
    State.sameBut.evolves (fun f hf => by cases f <;> simp at hf <;> rfl) rfl rfl rfl
  rw [makeSwitch_eq]
  exact (((switchedUnits_evolves target at_ before s).mono (by decide)).trans hset).trans
    ((raise_evolves _ _).mono (by decide))

theorem tellSwitch_evolves (n : Fin 8) (t before : Nat) (s : State) :
    s.evolves [.cad, .ser, .active, .switch] (tellSwitch n t before s) := by
  unfold tellSwitch
  split
  · split
    · split
      · exact makeSwitch_evolves _ _ _ s
      · exact .refl s _
    · exact .refl s _
  · exact .refl s _

theorem cadenceEdge_evolves (n : Fin 8) (s : State) :
    s.evolves [.cad, .ser, .active, .switch, .pins, .view] (cadenceEdge n s) := by
  unfold cadenceEdge
  dsimp only
  split
  · split
    · exact (((produceEdge_evolves _ _ _ _ s).mono (by decide)).trans
        ((tellSwitch_evolves _ _ _ _).mono (by decide))).trans ((endEvent_evolves s _).mono (by decide))
    · exact .refl s _
  · exact .refl s _

theorem pulseEnd_evolves (n : Fin 8) (s : State) : s.evolves [.cad, .ser, .pins, .view] (pulseEnd n s) := by
  unfold pulseEnd
  split
  · split
    · exact ((s.setCad_evolves n _).mono (by decide)).trans ((endEvent_evolves s _).mono (by decide))
    · exact .refl s _
  · exact .refl s _

theorem oneshotFire_evolves (n : Fin 8) (s : State) :
    s.evolves [.cad, .ser, .active, .switch, .pins, .view] (oneshotFire n s) := by
  unfold oneshotFire
  dsimp only
  split
  · split
    · exact .refl s _
    · split
      · exact ((((s.setCad_evolves n _).mono (by decide)).trans ((raise_evolves _ _).mono (by decide))).trans
          ((tellSwitch_evolves _ _ _ _).mono (by decide))).trans ((endEvent_evolves s _).mono (by decide))
      · split
        · exact .refl s _
        · exact ((((produceEdge_evolves _ _ _ _ s).mono (by decide)).trans ((raise_evolves _ _).mono (by decide))).trans
            ((tellSwitch_evolves _ _ _ _).mono (by decide))).trans ((endEvent_evolves s _).mono (by decide))
  · exact .refl s _

theorem atTimeReached_evolves (s : State) :
    s.evolves [.cad, .ser, .active, .switch, .pins, .view] (atTimeReached s) := by
  unfold atTimeReached
  split
  · split
    · split
      · exact ((makeSwitch_evolves _ _ _ s).mono (by decide)).trans ((endEvent_evolves s _).mono (by decide))
      · exact .refl s _
    · exact .refl s _
  · exact .refl s _

theorem stepCad_evolves (n : Fin 8) (s : State) : s.evolves [.cad] (stepCad n s) := by
  unfold stepCad
  dsimp only
  split
  · exact (s.setCad_evolves n _).trans ((raise_evolves _ _).mono (by decide))
  · split
    · exact (s.setCad_evolves n _).trans ((raise_evolves _ _).mono (by decide))
    · exact .refl s _
  · exact s.setCad_evolves n _
  · exact .refl s _

theorem catchUpCad_evolves (n : Fin 8) (s : State) : s.evolves [.cad] (catchUpCad n s) := by
  unfold catchUpCad
  dsimp only
  split
  · split
    · exact (s.setCad_evolves n _).trans ((raise_evolves _ _).mono (by decide))
    · exact s.setCad_evolves n _
  · split
    · exact (s.setCad_evolves n _).trans ((raise_evolves _ _).mono (by decide))
    · exact s.setCad_evolves n _
  · exact s.setCad_evolves n _

theorem reevaluateSwitch_evolves (before s : State) :
    s.evolves [.cad, .ser, .active, .switch] (reevaluateSwitch before s) := by
  unfold reevaluateSwitch
  split
  · split
    · split
      · exact makeSwitch_evolves _ _ _ s
      · exact .refl s _
    · split
      · exact makeSwitch_evolves _ _ _ s
      · exact .refl s _
  · exact .refl s _

/-! ### Capture lines -/

theorem captureInputChange_evolves (n : Fin 4) (s : State) : s.evolves [.cap] (captureInputChange n s) := by
  unfold captureInputChange
  dsimp only
  split
  · split
    · exact s.setCap_evolves n _
    · exact .refl s _
  · split
    · exact s.setCap_evolves n _
    · exact .refl s _
  · exact .refl s _

theorem storeStamp_evolves (n : Fin 4) (st : CapStamp) (s : State) : s.evolves [.cap] (storeStamp n st s) := by
  unfold storeStamp
  dsimp only
  split
  · exact .refl s _
  · exact (s.setCap_evolves n _).trans ((raiseIf_evolves _ _ _).mono (by decide))
  · split
    · exact (s.setCap_evolves n _).trans ((raise_evolves _ _).mono (by decide))
    · exact s.setCap_evolves n _

theorem phaseResult_evolves (n : Fin 4) (e : Int) (s : State) : s.evolves [.cap] (phaseResult n e s) := by
  unfold phaseResult
  dsimp only
  split
  · exact s.setCap_evolves n _
  · exact (s.setCap_evolves n _).trans ((raiseIf_evolves _ _ _).mono (by decide))

theorem comparePhase_evolves (n : Fin 4) (st : CapStamp) (s : State) : s.evolves [.cap] (comparePhase n st s) := by
  unfold comparePhase
  split
  · exact .refl s _
  · split
    · exact .refl s _
    · exact phaseResult_evolves n _ s

theorem captureAccept_evolves (n : Fin 4) (s : State) : s.evolves [.cap] (captureAccept n s) := by
  unfold captureAccept
  dsimp only
  split
  · split
    · split
      · exact ((s.setCap_evolves n _).trans (storeStamp_evolves _ _ _)).trans (comparePhase_evolves _ _ _)
      · exact s.setCap_evolves n _
    · exact .refl s _
  · exact .refl s _

/-! ### The servo -/

theorem setServo_evolves (s : State) (v : Servo) : s.evolves [.servo] { s with servo := v } :=
  State.sameBut.evolves (fun f hf => by cases f <;> simp at hf <;> rfl) rfl rfl rfl

theorem clearLocked_evolves (s : State) : s.evolves [.servo] (clearLocked s) :=
  (setServo_evolves s _).trans ((raiseIf_evolves _ _ _).mono (by decide))

theorem enterAcquire_evolves (fresh : Bool) (s : State) : s.evolves [.servo] (enterAcquire fresh s) :=
  (setServo_evolves s _).trans (clearLocked_evolves _)

theorem enterFree_evolves (s : State) : s.evolves [.servo] (enterFree s) := setServo_evolves s _

theorem enterHoldover_evolves (s : State) : s.evolves [.servo] (enterHoldover s) :=
  ((setServo_evolves s _).trans (clearLocked_evolves _)).trans ((raise_evolves _ _).mono (by decide))

theorem servoSelection_evolves (now : Option SourceName) (s : State) :
    s.evolves [.servo] (servoSelection now s) := by
  unfold servoSelection
  split
  · split
    · exact enterAcquire_evolves true s
    · exact .refl s _
  · exact .refl s _
  · exact .refl s _
  · exact enterFree_evolves s
  · exact enterAcquire_evolves false s
  · split
    · exact enterHoldover_evolves s
    · exact enterFree_evolves s
  · exact enterAcquire_evolves true s
  · exact .refl s _

/-- What a sample can change: the servo, the steps asked for, and, when it sets the traced flag, the cadences that wait
for it and so the outputs of the tick. -/
abbrev sampleFields : List Field := [.servo, .steps, .cad, .ser, .pins, .view]

theorem setTraced_evolves (s : State) : s.evolves sampleFields (setTraced s) := by
  unfold setTraced
  split
  · exact .refl s _
  · exact (((setServo_evolves s _).mono (by decide)).trans ((startWaiting_evolves _).mono (by decide))).trans
      ((settleTick_evolves _).mono (by decide))

theorem lockDetect_evolves (theta : Int) (s : State) : s.evolves sampleFields (lockDetect theta s) := by
  unfold lockDetect
  split
  · split
    · exact ((setServo_evolves s _).mono (by decide)).trans ((raise_evolves _ _).mono (by decide))
    · exact .refl s _
  · split
    · split
      · exact (((setServo_evolves s _).mono (by decide)).trans ((raise_evolves _ _).mono (by decide))).trans
          (setTraced_evolves _)
      · exact (setServo_evolves s _).mono (by decide)
    · exact (setServo_evolves s _).mono (by decide)

theorem applySample_evolves (theta : Int) (s : State) : s.evolves sampleFields (applySample theta s) :=
  ((setServo_evolves s _).mono (by decide)).trans (lockDetect_evolves _ _)

theorem acquireSample_evolves (o : Offset) (s : State) : s.evolves sampleFields (acquireSample o s) := by
  unfold acquireSample
  split
  · exact State.sameBut.evolves (fun f hf => by cases f <;> simp at hf <;> rfl) rfl rfl rfl
  · exact ((setServo_evolves s _).mono (by decide)).trans (applySample_evolves _ _)

theorem trackSample_evolves (o : Offset) (s : State) : s.evolves sampleFields (trackSample o s) := by
  unfold trackSample
  split
  · split
    · exact ((enterAcquire_evolves _ s).mono (by decide)).trans (acquireSample_evolves _ _)
    · exact (setServo_evolves s _).mono (by decide)
  · exact applySample_evolves _ s

theorem servoSample_evolves (o : Offset) (s : State) : s.evolves sampleFields (servoSample o s) := by
  unfold servoSample
  split
  · exact .refl s _
  · exact acquireSample_evolves o s
  · exact trackSample_evolves o s
  · exact .refl s _

theorem expireHoldover_evolves (s : State) : s.evolves [.servo] (expireHoldover s) := by
  unfold expireHoldover
  split
  · exact (enterFree_evolves s).trans ((raise_evolves _ _).mono (by decide))
  · exact .refl s _

theorem servoClockLoss_evolves (s : State) : s.evolves [.servo] (servoClockLoss s) :=
  (setServo_evolves s _).trans (clearLocked_evolves _)

/-! ### The exchange unit -/

theorem setExch_evolves (s : State) (x : Exchange) : s.evolves [.exch] { s with exch := x } :=
  State.sameBut.evolves (fun f hf => by cases f <;> simp at hf <;> rfl) rfl rfl rfl

theorem buildProbe_evolves (t : Template) (s : State) : s.evolves [.exch] (buildProbe t s) :=
  (setExch_evolves s _).trans ((arrive_evolves _ _ _ _).mono (by decide))

theorem expireSchedule_evolves (s : State) : s.evolves [.exch] (expireSchedule s) := by
  unfold expireSchedule
  split
  · exact .refl s _
  · split
    · split
      · exact (setExch_evolves s _).trans (buildProbe_evolves _ _)
      · exact setExch_evolves s _
    · exact .refl s _
  · split
    · exact setExch_evolves s _
    · exact .refl s _

theorem renewTemplate_evolves (t : Template) (s : State) : s.evolves [.exch] (renewTemplate t s) := by
  unfold renewTemplate
  dsimp only
  split
  · exact (setExch_evolves s _).trans (buildProbe_evolves _ _)
  · exact setExch_evolves s _

theorem probeDeparted_evolves (seq : BitVec 16) (st : Stamp) (s : State) :
    s.evolves [.exch] (probeDeparted seq st s) := by
  unfold probeDeparted
  exact iteInduction (motive := fun t => s.evolves [.exch] t) (fun _ => .refl s _) fun _ => setExch_evolves s _

theorem agePendingProbe_evolves (i : Fin 4) (s : State) : s.evolves [.exch] (agePendingProbe i s) := by
  unfold agePendingProbe
  split
  · split
    · exact setExch_evolves s _
    · exact .refl s _
  · exact .refl s _

/-- What a message of an exchange can change: the exchange unit, and what a sample can change. -/
abbrev exchangeFields : List Field := .exch :: sampleFields

theorem newMarkDiff_evolves (m : Int) (seq : BitVec 16) (s : State) :
    s.evolves exchangeFields (newMarkDiff m seq s) := by
  unfold newMarkDiff
  dsimp only
  split
  · exact (setExch_evolves s _).mono (by decide)
  · exact ((setExch_evolves s _).mono (by decide)).trans ((servoSample_evolves _ _).mono (by decide))

theorem oneStepMark_evolves (c : Copy) (h : Hdr) (s : State) : s.evolves exchangeFields (oneStepMark c h s) := by
  unfold oneStepMark
  dsimp only
  split
  · exact .refl s _
  · exact (((setExch_evolves s _).mono (by decide)).trans ((renewTemplate_evolves _ _).mono (by decide))).trans
      (newMarkDiff_evolves _ _ _)

theorem twoStepMark_evolves (c : Copy) (h : Hdr) (s : State) : s.evolves [.exch] (twoStepMark c h s) := by
  unfold twoStepMark
  split
  · exact .refl s _
  · exact (setExch_evolves s _).trans (renewTemplate_evolves _ _)

theorem followMatch_evolves (c : Copy) (h : Hdr) (s : State) : s.evolves exchangeFields (followMatch c h s) := by
  unfold followMatch
  split
  · exact .refl s _
  · split
    · dsimp only
      split
      · exact ((setExch_evolves s _).mono (by decide)).trans (newMarkDiff_evolves _ _ _)
      · exact (setExch_evolves s _).mono (by decide)
    · exact .refl s _

theorem probeReply_evolves (c : Copy) (h : Hdr) (s : State) : s.evolves [.exch] (probeReply c h s) := by
  unfold probeReply
  split
  · exact .refl s _
  · dsimp only
    split
    · exact setExch_evolves s _
    · exact setExch_evolves s _

theorem exchangeTake_evolves (c : Copy) (h : Hdr) (s : State) : s.evolves exchangeFields (exchangeTake c h s) := by
  unfold exchangeTake
  dsimp only
  split
  · exact .refl s _
  · split
    · split
      · exact (twoStepMark_evolves c h s).mono (by decide)
      · exact oneStepMark_evolves c h s
    · split
      · exact followMatch_evolves c h s
      · split
        · split
          · exact (probeReply_evolves c h s).mono (by decide)
          · exact .refl s _
        · exact .refl s _

theorem exchangeSourceChange_evolves (now : Option SourceName) (s : State) :
    s.evolves [.exch] (exchangeSourceChange now s) := setExch_evolves s _

theorem exchangeStep_evolves (s : State) : s.evolves [.exch] (exchangeStep s) := setExch_evolves s _

/-! ### The source table -/

/-- What a change at the source table can change. -/
abbrev selectionFields : List Field := [.sources, .exch, .servo]

theorem setSources_evolves (s : State) (v : Vector (Option SourceRec) 8) :
    s.evolves [.sources] { s with sources := v } :=
  State.sameBut.evolves (fun f hf => by cases f <;> simp at hf <;> rfl) rfl rfl rfl

theorem tellSelection_evolves (now : Option SourceName) (s : State) :
    s.evolves [.exch, .servo] (tellSelection now s) :=
  (((raise_evolves _ s).mono (by decide)).trans ((exchangeSourceChange_evolves now _).mono (by decide))).trans
    ((servoSelection_evolves now _).mono (by decide))

theorem rerunSelection_evolves (old : Option SourceName) (s : State) :
    s.evolves selectionFields (rerunSelection old s) := by
  unfold rerunSelection
  dsimp only
  split
  · exact (setSources_evolves s _).mono (by decide)
  · exact ((setSources_evolves s _).mono (by decide)).trans ((tellSelection_evolves _ _).mono (by decide))

theorem takeBeacon_evolves (content : List Byte) (pos : Nat) (h : Hdr) (st : Stamp) (s : State) :
    s.evolves selectionFields (takeBeacon content pos h st s) := by
  have hset : ∀ i r, s.evolves selectionFields (s.setSource i r) := fun i r =>
    (s.setSource_evolves i r).mono (by decide)
  unfold takeBeacon
  dsimp only
  split
  · exact .refl s _
  · split
    · split
      · split
        · exact .refl s _
        · split
          · exact (hset _ _).trans (rerunSelection_evolves _ _)
          · exact hset _ _
      · exact .refl s _
    · split
      · exact hset _ _
      · split
        · split
          · split
            · exact (hset _ _).trans (rerunSelection_evolves _ _)
            · exact .refl s _
          · exact .refl s _
        · exact .refl s _

theorem sourceTimeout_evolves (i : Fin 8) (s : State) : s.evolves selectionFields (sourceTimeout i s) := by
  have hset : s.evolves selectionFields (s.setSource i none) := (s.setSource_evolves i none).mono (by decide)
  unfold sourceTimeout
  dsimp only
  split
  · split
    · split
      · exact hset.trans (rerunSelection_evolves _ _)
      · exact hset
    · exact .refl s _
  · exact .refl s _

/-- What the intake of a copy can change. -/
abbrev intakeFields : List Field := .copies :: .sources :: exchangeFields

theorem intakeNext_evolves (s : State) : s.evolves intakeFields (intakeNext s) := by
  unfold intakeNext
  split
  · exact .refl s _
  · rename_i c rest _
    have hcopies : s.evolves intakeFields { s with copies := rest } :=
      State.sameBut.evolves (fun f hf => by cases f <;> simp at hf <;> rfl) rfl rfl rfl
    dsimp only
    split
    · split
      · exact hcopies.trans ((takeBeacon_evolves _ _ _ _ _).mono (by decide))
      · exact hcopies.trans ((exchangeTake_evolves _ _ _).mono (by decide))
    · exact hcopies

/-! ### The clock monitor -/

theorem setClock_evolves (s : State) (c : ClockState) : s.evolves [.clock] { s with clock := c } :=
  State.sameBut.evolves (fun f hf => by cases f <;> simp at hf <;> rfl) rfl rfl rfl

theorem clockRestored_evolves (s : State) : s.evolves [.clock, .servo] (clockRestored s) := by
  have hraise : s.evolves [.clock, .servo] (raise .clockRestored { s with clock := .normal }) :=
    ((setClock_evolves s .normal).trans ((raise_evolves _ _).mono (by decide))).mono (by decide)
  unfold clockRestored
  dsimp only
  split
  · split
    · split
      · exact hraise.trans ((enterAcquire_evolves _ _).mono (by decide))
      · exact hraise
    · exact .refl s _
  · exact .refl s _

theorem qualificationStart_evolves (s : State) : s.evolves [.clock] (qualificationStart s) := by
  unfold qualificationStart
  split
  · exact setClock_evolves s _
  · exact .refl s _

theorem qualificationRestart_evolves (s : State) : s.evolves [.clock] (qualificationRestart s) := by
  unfold qualificationRestart
  split
  · exact setClock_evolves s _
  · exact .refl s _

/-! ### Ports and departures -/

theorem makeResetDue_sameBut (c : Bool) (s : State) : s.sameBut [.restart] (makeResetDue c s) := by
  cases c
  · exact .refl s _
  · exact fun f hf => by cases f <;> simp at hf <;> rfl

theorem linkUp_sameBut (p : Port) (s : State) : s.sameBut [] (linkUp p s) := by
  unfold linkUp
  split
  · exact .refl s _
  · exact s.setPort_sameBut p _

theorem setDeparting_sameBut (s : State) (l : List Departure) : s.sameBut [.departing] { s with departing := l } :=
  fun f hf => by cases f <;> simp at hf <;> rfl

theorem endSending_sameBut (s : State) (p : Port) : s.sameBut [.departing] (s.endSending p) :=
  ((s.setPort_sameBut p _).mono (by decide)).trans (setDeparting_sameBut _ _)

theorem linkDown_sameBut (p : Port) (s : State) : s.sameBut [.departing, .restart] (linkDown p s) := by
  unfold linkDown
  dsimp only
  split
  · exact .refl s _
  · exact (((endSending_sameBut s p).mono (by decide)).trans ((State.setPort_sameBut _ p _).mono (by decide))).trans
      ((makeResetDue_sameBut _ _).mono (by decide))

theorem frameReceived_sameBut (p : Port) (bytes : List Byte) (cut : Bool) (s : State) :
    s.sameBut [] (frameReceived p bytes cut s) := by
  unfold frameReceived
  dsimp only
  split
  · split
    · exact s.setPort_sameBut p _
    · exact s.setPort_sameBut p _
  · split
    · exact s.setPort_sameBut p _
    · exact .refl s _
  · exact .refl s _

theorem depart_sameBut (p : Port) (e : EgressEntry) (s : State) : s.sameBut [.departing, .restart] (depart p e s) := by
  unfold depart
  dsimp only
  refine State.sameBut.trans ?_ ((makeResetDue_sameBut _ _).mono (by decide))
  split
  · exact ((s.setPort_sameBut p _).mono (by decide)).trans ((setDeparting_sameBut _ _).mono (by decide))
  · exact (s.setPort_sameBut p _).mono (by decide)

theorem transmitStart_sameBut (p : Port) (s : State) : s.sameBut [.departing, .restart] (transmitStart p s) := by
  unfold transmitStart
  dsimp only
  split
  · split
    · exact ((s.setPort_sameBut p _).mono (by decide)).trans (depart_sameBut _ _ _)
    · exact ((s.setPort_sameBut p _).mono (by decide)).trans (depart_sameBut _ _ _)
    · exact .refl s _
  · exact .refl s _

theorem transmitEnd_sameBut (p : Port) (s : State) : s.sameBut [.departing] (transmitEnd p s) := by
  unfold transmitEnd
  split
  · split
    · exact .refl s _
    · exact endSending_sameBut s p
  · exact .refl s _

theorem setResidence_evolves (s : State) (l : List ResRec) : s.evolves [.residence] { s with residence := l } :=
  State.sameBut.evolves (fun f hf => by cases f <;> simp at hf <;> rfl) rfl rfl rfl

theorem consult_evolves (p : Port) (bytes : List Byte) (ingress egress : Stamp) (mark : CorrMark) (s : State) :
    s.evolves [.residence] (consult p bytes ingress egress mark s).2 := by
  unfold consult
  dsimp only
  split
  · exact .refl s _
  · split
    · exact setResidence_evolves s _
    · split
      · exact .refl s _
      · split
        · split
          · exact setResidence_evolves s _
          · exact (raise_evolves _ s).mono (by decide)
        · exact .refl s _

theorem ageResidence_evolves (i : Fin 8) (s : State) : s.evolves [.residence] (ageResidence i s) := by
  unfold ageResidence
  split
  · split
    · exact setResidence_evolves s _
    · exact .refl s _
  · exact .refl s _

theorem handOver_sameBut (d : Departure) (s : State) : s.sameBut [.residence, .exch] (handOver d s) := by
  obtain ⟨ing, mark, -, h⟩ | ⟨seq, -, h⟩ | ⟨-, h⟩ := handOver_cases d s
  · rw [h]
    exact ((consult_evolves _ _ _ _ _ s).same.mono (by decide)).trans ((State.setPort_sameBut _ _ _).mono (by decide))
  · rw [h]
    exact (probeDeparted_evolves _ _ s).same.mono (by decide)
  · rw [h]
    exact .refl s _

theorem handOverThose_sameBut (now : Departure → Bool) (s : State) :
    s.sameBut [.residence, .exch, .departing] (handOverThose now s) :=
  ((setDeparting_sameBut s _).mono (by decide)).trans
    ((State.sameBut.foldl (fun t d => handOver_sameBut d t) _ _).mono (by decide))

/-! ### Classification -/

theorem receiveRequest_evolves (p : Port) (bytes : List Byte) (s : State) :
    s.evolves [.requests] (receiveRequest p bytes s) := by
  unfold receiveRequest
  dsimp only
  split
  · exact .refl s _
  · split
    · exact State.sameBut.evolves (fun f hf => by cases f <;> simp at hf <;> rfl) rfl rfl rfl
    · exact .refl s _

theorem applyDisposition_evolves (p : Port) (r : FrameRec) (d : Disposition) (s : State) :
    s.evolves [.requests, .copies] (applyDisposition p r d s) := by
  have hcopy : ∀ l, s.evolves [.requests, .copies] { s with copies := l } := fun l =>
    State.sameBut.evolves (fun f hf => by cases f <;> simp at hf <;> rfl) rfl rfl rfl
  unfold applyDisposition
  dsimp only
  split
  · exact (receiveRequest_evolves p _ s).mono (by decide)
  · split
    · split
      · exact (hcopy _).trans ((arrive_evolves _ _ _ _).mono (by decide))
      · exact (arrive_evolves _ _ _ _).mono (by decide)
    · split
      · exact hcopy _
      · exact .refl s _

theorem classifyNext_sameBut (p : Port) (s : State) : s.sameBut [.requests, .copies] (classifyNext p s) := by
  unfold classifyNext
  split
  · exact .refl s _
  · exact ((s.setPort_sameBut p _).mono (by decide)).trans (applyDisposition_evolves _ _ _ _).same

/-! ### Ticks -/

theorem setCounters_evolves (s : State) (t : TimeVal) (e : Elapsed) (r : BitVec 24) :
    s.evolves [.time, .elapsed, .elapsedRem] { s with time := t, elapsed := e, elapsedRem := r } :=
  State.sameBut.evolves (fun f hf => by cases f <;> simp at hf <;> rfl) rfl rfl rfl

theorem setPrevTimes_evolves (s : State) (p p2 : Nat) :
    s.evolves [.prevTime, .prevTime2] { s with prevTime := p, prevTime2 := p2 } :=
  State.sameBut.evolves (fun f hf => by cases f <;> simp at hf <;> rfl) rfl rfl rfl

theorem advanceCounters_evolves (amount : Nat) (s : State) :
    s.evolves [.time, .elapsed, .elapsedRem] (advanceCounters amount s) := setCounters_evolves s _ _ _

theorem tickCounters_evolves (amount : Nat) (s : State) :
    s.evolves [.time, .elapsed, .elapsedRem, .prevTime, .prevTime2] (tickCounters amount s) :=
  ((advanceCounters_evolves amount s).mono (by decide)).trans
    ((setPrevTimes_evolves (advanceCounters amount s) s.time.total s.prevTime).mono (by decide))

theorem tickCads_evolves (s : State) : s.evolves [.cad] (tickCads s) :=
  State.sameBut.evolves (fun f hf => by cases f <;> simp at hf <;> rfl) rfl rfl rfl

theorem limitPulses_evolves (s : State) : s.evolves [.cad] (limitPulses s) :=
  State.sameBut.evolves (fun f hf => by cases f <;> simp at hf <;> rfl) rfl rfl rfl

theorem tickUnits_evolves (inp : TickIn) (s : State) : s.evolves [.ser, .cap, .switch] (tickUnits inp s) :=
  State.sameBut.evolves (fun f hf => by cases f <;> simp at hf <;> rfl) rfl rfl rfl

theorem takeIngress_sameBut (p : Port) (start : Bool) (s : State) : s.sameBut [] (takeIngress p start s) :=
  s.setPort_sameBut p _

theorem takeEgress_sameBut (s : State) : s.sameBut [.residence, .exch, .departing] (takeEgress s) :=
  handOverThose_sameBut _ s

theorem closeTick_evolves (s : State) : s.evolves [.ser, .pins, .view] (closeTick s) := by
  unfold closeTick
  split
  · exact showOutputs_evolves _ s
  · exact .refl s _

theorem tickOutputs_evolves (s : State) : s.evolves [.cad, .ser, .pins, .view] (tickOutputs s) := by
  have hlimit : s.evolves [.cad, .ser, .pins, .view] (limitPulses s) :=
    (limitPulses_evolves s).mono (by decide)
  have hview : ∀ (t : State) v, t.evolves [.cad, .ser, .pins, .view] { t with view := v } := fun t v =>
    State.sameBut.evolves (fun f hf => by cases f <;> simp at hf <;> rfl) rfl rfl rfl
  have hclosed : s.evolves [.cad, .ser, .pins, .view]
      { closeTick (limitPulses s) with view := some (limitPulses s).viewNow } :=
    (hlimit.trans ((closeTick_evolves _).mono (by decide))).trans (hview _ _)
  exact hclosed.trans ((settleTick_evolves _).mono (by decide))

/-- What the last part of a tick can change. -/
abbrev tickEndFields : List Field := [.residence, .exch, .departing, .cad, .ser, .pins, .view]

theorem tickEnd_sameBut (inp : TickIn) (s : State) : s.sameBut tickEndFields (tickEnd inp s) :=
  ((((takeIngress_sameBut .n inp.rxN s).mono (by decide)).trans ((takeIngress_sameBut .d inp.rxD _).mono (by decide))).trans
    ((takeEgress_sameBut _).mono (by decide))).trans ((tickOutputs_evolves _).same.mono (by decide))

/-- What a step can change. -/
abbrev stepFields : List Field := [.time, .prevTime, .prevTime2, .exch, .cad, .cap, .ser, .active, .switch]

/-- A step as the exchange unit has been told of it, before the cadences are. -/
def stepTold (t : TimeVal) (s : State) : State :=
  exchangeStep (raise .timeStepped { s with time := t, prevTime := t.total, prevTime2 := t.total })

/-- A step notice at the capture lines and the serializers (R167, R183). -/
def stepMarked (s : State) : State :=
  { s with
    cap := mapCap (fun _ x => x.stepNotice) s.cap
    ser := #v[{ s.ser[0] with stepSeen := true }, { s.ser[1] with stepSeen := true }] }

/-- A step notice at every cadence. -/
def stepCads (s : State) : State := allCad.foldl (fun u n => stepCad n u) s

theorem makeStep_eq (t : TimeVal) (s : State) :
    makeStep t s = reevaluateSwitch (stepTold t s) (stepMarked (stepCads (stepTold t s))) := rfl

theorem stepTold_evolves (t : TimeVal) (s : State) :
    s.evolves [.time, .prevTime, .prevTime2, .exch] (stepTold t s) := by
  have htime : s.evolves [.time, .prevTime, .prevTime2, .exch]
      { s with time := t, prevTime := t.total, prevTime2 := t.total } :=
    State.sameBut.evolves (fun f hf => by cases f <;> simp at hf <;> rfl) rfl rfl rfl
  exact (htime.trans ((raise_evolves _ _).mono (by decide))).trans ((exchangeStep_evolves _).mono (by decide))

theorem stepMarked_evolves (s : State) : s.evolves [.cap, .ser] (stepMarked s) :=
  State.sameBut.evolves (fun f hf => by cases f <;> simp at hf <;> rfl) rfl rfl rfl

theorem stepCads_evolves (s : State) : s.evolves [.cad] (stepCads s) :=
  State.evolves.foldl (fun u n => stepCad_evolves n u) allCad s

theorem makeStep_evolves (t : TimeVal) (s : State) : s.evolves stepFields (makeStep t s) := by
  rw [makeStep_eq]
  exact ((((stepTold_evolves t s).mono (by decide)).trans ((stepCads_evolves _).mono (by decide))).trans
    ((stepMarked_evolves _).mono (by decide))).trans ((reevaluateSwitch_evolves _ _).mono (by decide))

theorem takeStep_evolves (r : StepReq) (s : State) : s.evolves stepFields (takeStep r s) := by
  unfold takeStep
  split
  · exact makeStep_evolves _ s
  · exact .refl s _

theorem takeSteps_evolves (s : State) : s.evolves (.steps :: stepFields) (takeSteps s) := by
  have hsteps : s.evolves (.steps :: stepFields) { s with steps := [] } :=
    State.sameBut.evolves (fun f hf => by cases f <;> simp at hf <;> rfl) rfl rfl rfl
  exact hsteps.trans ((State.evolves.foldl (fun t r => takeStep_evolves r t) _ _).mono (by decide))

/-- What a tick can change. -/
abbrev tickAllFields : List Field :=
  [.time, .elapsed, .elapsedRem, .prevTime, .prevTime2, .cad, .ser, .cap, .switch, .active, .clock, .steps, .exch,
    .residence, .departing, .pins, .view]

/-- A tick up to its steps: the counters, the units and the clock monitor. -/
def tickStart (inp : TickIn) (s : State) : State :=
  { tickUnits inp (tickCads (tickCounters s.increment s)) with
    clock := (tickUnits inp (tickCads (tickCounters s.increment s))).clock.tick }

theorem tickAll_eq (inp : TickIn) (s : State) : tickAll inp s = tickEnd inp (takeSteps (tickStart inp s)) := rfl

theorem tickStart_evolves (inp : TickIn) (s : State) :
    s.evolves [.time, .elapsed, .elapsedRem, .prevTime, .prevTime2, .cad, .ser, .cap, .switch, .clock]
      (tickStart inp s) :=
  ((((tickCounters_evolves _ s).mono (by decide)).trans ((tickCads_evolves _).mono (by decide))).trans
    ((tickUnits_evolves inp _).mono (by decide))).trans ((setClock_evolves _ _).mono (by decide))

theorem tickAll_sameBut (inp : TickIn) (s : State) : s.sameBut tickAllFields (tickAll inp s) := by
  rw [tickAll_eq]
  exact ((tickStart_evolves inp s).same.mono (by decide)).trans
    (((takeSteps_evolves _).same.mono (by decide)).trans ((tickEnd_sameBut inp _).mono (by decide)))

theorem stepTick_sameBut (inp : TickIn) (s : State) : s.sameBut tickAllFields (stepTick inp s) := by
  unfold stepTick
  split
  · exact .refl s _
  · exact tickAll_sameBut inp s

/-- The catch-up advance at the counters and the units (R113, R136): one tick for the units, the value taken for the
tick before being the counter's own. -/
def lossAdvance (n : Nat) (inp : TickIn) (s : State) : State :=
  let s1 := tickUnits inp (tickCads (tickCounters (n * s.increment) { s with clock := .backup none }))
  { s1 with prevTime := s1.time.total, prevTime2 := s1.time.total }

/-- The catch-up advance at every cadence. -/
def catchUpCads (s : State) : State := allCad.foldl (fun u c => catchUpCad c u) s

/-- A loss of TCLK up to the notices that end it. -/
def lossCaughtUp (n : Nat) (inp : TickIn) (s : State) : State :=
  reevaluateSwitch (lossAdvance n inp s) (catchUpCads (lossAdvance n inp s))

theorem clockLoss_of_normal (n : Nat) (inp : TickIn) {s : State} (h : s.clock = .normal) :
    clockLoss n inp s = tickEnd inp (raise .clockLoss (servoClockLoss (lossCaughtUp n inp s))) :=
  if_neg (not_not.mpr h)

theorem clockLoss_of_backup (n : Nat) (inp : TickIn) {s : State} (h : s.clock ≠ .normal) : clockLoss n inp s = s :=
  if_pos h

theorem lossAdvance_evolves (n : Nat) (inp : TickIn) (s : State) :
    s.evolves [.time, .elapsed, .elapsedRem, .prevTime, .prevTime2, .cad, .ser, .cap, .switch, .clock]
      (lossAdvance n inp s) := by
  have hunits : s.evolves [.time, .elapsed, .elapsedRem, .prevTime, .prevTime2, .cad, .ser, .cap, .switch, .clock]
      (tickUnits inp (tickCads (tickCounters (n * s.increment) { s with clock := .backup none }))) :=
    ((((setClock_evolves s _).mono (by decide)).trans ((tickCounters_evolves _ _).mono (by decide))).trans
      ((tickCads_evolves _).mono (by decide))).trans ((tickUnits_evolves inp _).mono (by decide))
  exact hunits.trans ((setPrevTimes_evolves _ _ _).mono (by decide))

theorem catchUpCads_evolves (s : State) : s.evolves [.cad] (catchUpCads s) :=
  State.evolves.foldl (fun u c => catchUpCad_evolves c u) allCad s

theorem lossCaughtUp_evolves (n : Nat) (inp : TickIn) (s : State) :
    s.evolves tickAllFields (lossCaughtUp n inp s) :=
  (((lossAdvance_evolves n inp s).mono (by decide)).trans ((catchUpCads_evolves _).mono (by decide))).trans
    ((reevaluateSwitch_evolves _ _).mono (by decide))

theorem clockLoss_sameBut (n : Nat) (inp : TickIn) (s : State) :
    s.sameBut (.servo :: tickAllFields) (clockLoss n inp s) := by
  by_cases h : s.clock = .normal
  · rw [clockLoss_of_normal n inp h]
    exact ((((lossCaughtUp_evolves n inp s).same.mono (by decide)).trans ((servoClockLoss_evolves _).same.mono (by decide))).trans
      ((raise_evolves _ _).same.mono (by decide))).trans ((tickEnd_sameBut inp _).mono (by decide))
  · rw [clockLoss_of_backup n inp h]
    exact .refl s _

end Sys2Proof.Machine
end

section
/-!
PROOFS. What the agent's commands and then every command can change, and the step rule that the invariants use.
-/

namespace Sys2Proof.Machine

/-! ### Tables -/

/-- What writing a table can change. -/
abbrev writeFields : List Field :=
  [.classify, .servoCfg, .servo, .exch, .sources, .civil, .banks, .cad, .ser, .pins, .view, .capRec, .cap, .notifyCfg,
    .managers]

theorem applyServo_evolves (cfg : ServoCfg) (s : State) :
    s.evolves [.servoCfg, .servo, .exch, .sources] (applyServo cfg s) := by
  have hcfg : ∀ v, s.evolves [.servoCfg, .servo, .exch, .sources] { s with servoCfg := cfg, servo := v } := fun v =>
    State.sameBut.evolves (fun f hf => by cases f <;> simp at hf <;> rfl) rfl rfl rfl
  unfold applyServo
  dsimp only
  refine State.evolves.trans ?_ (.ite (.refl _ _) ((expireHoldover_evolves _).mono (by decide)))
  refine State.evolves.trans ?_ (.ite (.refl _ _) ((expireSchedule_evolves _).mono (by decide)))
  refine State.evolves.trans ?_ (.ite (.refl _ _) ((rerunSelection_evolves _ _).mono (by decide)))
  refine State.evolves.trans ?_ ((setSources_evolves _ _).mono (by decide))
  exact (hcfg _).trans (.ite (.refl _ _) ((setExch_evolves _ _).mono (by decide)))

theorem setBanks_evolves (s : State) (v : Vector Bank 4) : s.evolves [.banks] { s with banks := v } :=
  State.sameBut.evolves (fun f hf => by cases f <;> simp at hf <;> rfl) rfl rfl rfl

theorem storeCad_evolves (k : Fin 4) (n : Fin 8) (r : CadRec) (s : State) :
    s.evolves [.banks, .cad, .ser, .pins, .view] (storeCad k n r s) := by
  unfold storeCad
  dsimp only
  split
  · exact (((setBanks_evolves s _).mono (by decide)).trans ((restartCad_evolves _ _ _ _).mono (by decide))).trans
      ((endEvent_evolves s _).mono (by decide))
  · exact (setBanks_evolves s _).mono (by decide)

theorem storeLabel_evolves (k : Fin 4) (m : Fin 2) (c : LabelCfg) (s : State) :
    s.evolves [.banks, .ser] (storeLabel k m c s) := by
  unfold storeLabel
  dsimp only
  split
  · exact ((setBanks_evolves s _).mono (by decide)).trans ((State.setSer_evolves _ _ _).mono (by decide))
  · exact (setBanks_evolves s _).mono (by decide)

/-- The outcomes of writing one entry: a refusal, or for each table the stored record with its effect. -/
theorem writeEntry_applied {t : TableId} {i : Nat} {b : List Byte} {s u : State} {c : Bool}
    (h : writeEntry t i b s = .applied c u) :
    (∃ n e, decodeClass b = some e ∧ u = { s with classify := s.classify.set (n : Fin 32).val e }) ∨
      (fieldAt b 0 4 ≤ maxLatency ∧ fieldAt b 4 4 ≤ maxLatency ∧ (portOf i = .d → signedOf 32 (fieldAt b 8 4) = 0) ∧
        u = s.setPort (portOf i)
          { s.port (portOf i) with
            ingressLat := fieldAt b 0 4, egressLat := fieldAt b 4 4, asym := signedOf 32 (fieldAt b 8 4) }) ∨
      (∃ cfg, decodeServo b = some cfg ∧ u = applyServo cfg s) ∨
      u = { s with civil := signedOf 16 (fieldAt b 0 2) } ∨
      (∃ k n r, writeBlocked s k (some n) = false ∧ decodeCad b = some r ∧ u = storeCad k n r s) ∨
      (∃ k n r, decodeRoute b = some r ∧ u = s.setRoute k n r) ∨
      (∃ k m r, decodeLabel b = some r ∧ u = storeLabel k m r s) ∨
      (∃ n r, decodeCapture b = some r ∧
        u = { s with capRec := s.capRec.set (n : Fin 4).val r }.setCap n (s.cap[n].reconfigure s.capRec[n] r)) ∨
      (∃ g r, decodeNotify b = some r ∧ u = { s with notifyCfg := s.notifyCfg.set (g : Fin 4).val r }) ∨
      ∃ n, u = { s with managers := s.managers.set (n : Fin 4).val (bitsAt 48 b 0 6) } := by
  cases t with
  | classify =>
    simp only [writeEntry, writeClassify] at h
    split at h
    · rename_i n e _ he
      obtain ⟨-, rfl⟩ := EntryResult.applied.inj h
      exact .inl ⟨n, e, he, rfl⟩
    · cases h
  | port =>
    simp only [writeEntry, writePort] at h
    split at h
    · cases h
    · rename_i hc
      obtain ⟨-, rfl⟩ := EntryResult.applied.inj h
      simp only [not_or, not_lt, not_and, not_not] at hc
      exact .inr (.inl ⟨hc.1, hc.2.1, hc.2.2, rfl⟩)
  | servo =>
    simp only [writeEntry, writeServo] at h
    split at h
    · rename_i cfg hcfg
      obtain ⟨-, rfl⟩ := EntryResult.applied.inj h
      exact .inr (.inr (.inl ⟨cfg, hcfg, rfl⟩))
    · cases h
  | civil =>
    obtain ⟨-, rfl⟩ := EntryResult.applied.inj h
    exact .inr (.inr (.inr (.inl rfl)))
  | cadence k =>
    simp only [writeEntry, writeCad] at h
    split at h
    · cases h
    · rename_i n _
      split at h
      · cases h
      · rename_i hb
        split at h
        · rename_i r hr
          obtain ⟨-, rfl⟩ := EntryResult.applied.inj h
          exact .inr (.inr (.inr (.inr (.inl ⟨k, n, r, by simpa using hb, hr, rfl⟩))))
        · cases h
  | lines k =>
    simp only [writeEntry, writeLine] at h
    split at h
    · cases h
    · rename_i n _
      split at h
      · cases h
      · split at h
        · rename_i r hr
          obtain ⟨-, rfl⟩ := EntryResult.applied.inj h
          exact .inr (.inr (.inr (.inr (.inr (.inl ⟨k, n, r, hr, rfl⟩)))))
        · cases h
  | labels k =>
    simp only [writeEntry, writeLabel] at h
    split at h
    · cases h
    · rename_i m _
      split at h
      · cases h
      · split at h
        · rename_i r hr
          obtain ⟨-, rfl⟩ := EntryResult.applied.inj h
          exact .inr (.inr (.inr (.inr (.inr (.inr (.inl ⟨k, m, r, hr, rfl⟩))))))
        · cases h
  | capture =>
    simp only [writeEntry, writeCapture] at h
    split at h
    · rename_i n r _ hr
      obtain ⟨-, rfl⟩ := EntryResult.applied.inj h
      exact .inr (.inr (.inr (.inr (.inr (.inr (.inr (.inl ⟨n, r, hr, rfl⟩)))))))
    · cases h
  | notify =>
    simp only [writeEntry, writeNotify] at h
    split at h
    · rename_i g r _ hr
      obtain ⟨-, rfl⟩ := EntryResult.applied.inj h
      exact .inr (.inr (.inr (.inr (.inr (.inr (.inr (.inr (.inl ⟨g, r, hr, rfl⟩))))))))
    · cases h
  | managers =>
    simp only [writeEntry, writeManager] at h
    split at h
    · rename_i n _
      obtain ⟨-, rfl⟩ := EntryResult.applied.inj h
      exact .inr (.inr (.inr (.inr (.inr (.inr (.inr (.inr (.inr ⟨n, rfl⟩))))))))
    · cases h
  | sources => cases h

/-- The entries of a WRITE_TABLE keep what the writing of one entry keeps. -/
theorem writeEntries_keeps {P : State → Prop}
    (hP : ∀ {t : TableId} {i : Nat} {b : List Byte} {s u : State} {c : Bool}, P s → writeEntry t i b s = .applied c u → P u)
    (t : TableId) (i : Nat) (bs : List (List Byte)) (done : Nat) (clamped : Bool) {s : State} (hs : P s) :
    P (writeEntries t i bs done clamped s).after := by
  induction bs generalizing i done clamped s with
  | nil => exact hs
  | cons b bs ih =>
    unfold writeEntries
    split
    · rename_i c u h
      exact ih _ _ _ (hP hs h)
    · exact hs

theorem writeTableCore_keeps {P : State → Prop}
    (hP : ∀ {t : TableId} {i : Nat} {b : List Byte} {s u : State} {c : Bool}, P s → writeEntry t i b s = .applied c u → P u)
    (body : List Byte) {s : State} (hs : P s) : P (writeTableCore body s).after := by
  unfold writeTableCore
  split
  · exact hs
  · exact writeEntries_keeps hP _ _ _ _ _ hs

theorem writeEntry_sameBut {t : TableId} {i : Nat} {b : List Byte} {s u : State} {c : Bool}
    (h : writeEntry t i b s = .applied c u) : s.sameBut writeFields u := by
  obtain ⟨n, e, -, rfl⟩ | ⟨-, -, -, rfl⟩ | ⟨cfg, -, rfl⟩ | rfl | ⟨k, n, r, -, -, rfl⟩ | ⟨k, n, r, -, rfl⟩ |
    ⟨k, m, r, -, rfl⟩ | ⟨n, r, -, rfl⟩ | ⟨g, r, -, rfl⟩ | ⟨n, rfl⟩ := writeEntry_applied h
  · exact fun f hf => by cases f <;> simp at hf <;> rfl
  · exact (s.setPort_sameBut _ _).mono (by decide)
  · exact (applyServo_evolves cfg s).same.mono (by decide)
  · exact fun f hf => by cases f <;> simp at hf <;> rfl
  · exact (storeCad_evolves k n r s).same.mono (by decide)
  · exact (setBanks_evolves s _).same.mono (by decide)
  · exact (storeLabel_evolves k m r s).same.mono (by decide)
  · exact fun f hf => by cases f <;> simp at hf <;> rfl
  · exact fun f hf => by cases f <;> simp at hf <;> rfl
  · exact fun f hf => by cases f <;> simp at hf <;> rfl

theorem writeTableCore_sameBut (body : List Byte) (s : State) :
    s.sameBut writeFields (writeTableCore body s).after :=
  writeTableCore_keeps (P := s.sameBut writeFields) (fun hs h => hs.trans (writeEntry_sameBut h)) body (.refl s _)

/-! ### The agent -/

theorem setRequests_evolves (s : State) (l : List Request) : s.evolves [.requests] { s with requests := l } :=
  State.sameBut.evolves (fun f hf => by cases f <;> simp at hf <;> rfl) rfl rfl rfl

/-- What the agent's handling of a request keeps: what the removal of the oldest request, a response and the command
itself keep. -/
theorem serve_keeps {P : State → Prop} {c : Command} {core : List Byte → State → Reply}
    (hreq : ∀ (s : State) r rest, s.requests = r :: rest → P s → P { s with requests := rest })
    (hresp : ∀ s t : State, s.evolves [] t → P s → P t) (hcore : ∀ (b : List Byte) (s : State), P s → P (core b s).after)
    {s : State} (hs : P s) : P (serve c core s) := by
  obtain h | ⟨r, rest, -, hq, -, ⟨st, -, h⟩ | ⟨-, h⟩⟩ := serve_cases c core s
  · rw [h]
    exact hs
  · rw [h]
    exact hresp _ _ (respond_evolves _ _) (hreq s r rest hq hs)
  · rw [h]
    exact hresp _ _ (respond_evolves _ _) (hcore _ _ (hreq s r rest hq hs))

theorem serve_sameBut {c : Command} {core : List Byte → State → Reply} {F : List Field}
    (hcore : ∀ (b : List Byte) (s : State), s.sameBut F (core b s).after) (s : State) :
    s.sameBut (.requests :: F) (serve c core s) :=
  serve_keeps (P := s.sameBut (.requests :: F))
    (fun t _ l _ ht => ht.trans ((setRequests_evolves t l).same.mono (by simp)))
    (fun _ _ hu ht => ht.trans (hu.same.mono (by simp))) (fun b t ht => ht.trans ((hcore b t).mono (by simp)))
    (.refl s _)

theorem serve_evolves {c : Command} {core : List Byte → State → Reply} {F : List Field}
    (hcore : ∀ (b : List Byte) (s : State), s.evolves F (core b s).after) (s : State) :
    s.evolves (.requests :: F) (serve c core s) :=
  serve_keeps (P := s.evolves (.requests :: F))
    (fun t _ l _ ht => ht.trans ((setRequests_evolves t l).mono (by simp)))
    (fun _ _ hu ht => ht.trans (hu.mono (by simp))) (fun b t ht => ht.trans ((hcore b t).mono (by simp)))
    (.refl s _)

/-- What the answer to BAD_COMMAND_REQUEST keeps. -/
theorem badCommand_keeps {P : State → Prop}
    (hreq : ∀ (s : State) r rest, s.requests = r :: rest → P s → P { s with requests := rest })
    (hresp : ∀ s t : State, s.evolves [] t → P s → P t) {s : State} (hs : P s) : P (badCommand s) := by
  unfold badCommand
  split
  · rename_i r rest _ hq
    split
    · exact hresp _ _ (respond_evolves _ _) (hreq s r rest hq hs)
    · exact hs
  · exact hs

theorem badCommand_evolves (s : State) : s.evolves [.requests] (badCommand s) :=
  badCommand_keeps (P := s.evolves [.requests]) (fun t _ l _ ht => ht.trans (setRequests_evolves t l))
    (fun _ _ hu ht => ht.trans (hu.mono (by simp))) (.refl s _)

theorem setRestart_evolves (s : State) (x : RestartState) : s.evolves [.restart] { s with restart := x } :=
  State.sameBut.evolves (fun f hf => by cases f <;> simp at hf <;> rfl) rfl rfl rfl

/-- What a RESTART keeps. -/
theorem restartRequest_keeps {P : State → Prop}
    (hreq : ∀ (s : State) r rest, s.requests = r :: rest → P s → P { s with requests := rest })
    (hresp : ∀ s t : State, s.evolves [] t → P s → P t) (hrestart : ∀ (s : State) x, P s → P { s with restart := x })
    {s : State} (hs : P s) : P (restartRequest s) := by
  unfold restartRequest
  split
  · rename_i r rest _ hq
    have hpop : P { s with requests := rest } := hreq s r rest hq hs
    split
    · dsimp only
      split
      · exact hresp _ _ (respond_evolves _ _) hpop
      · exact hresp _ _ (arrive_evolves _ _ _ _) (hrestart _ _ hpop)
    · exact hs
  · exact hs

theorem restartRequest_evolves (s : State) : s.evolves [.requests, .restart] (restartRequest s) :=
  restartRequest_keeps (P := s.evolves [.requests, .restart])
    (fun t _ l _ ht => ht.trans ((setRequests_evolves t l).mono (by simp)))
    (fun _ _ hu ht => ht.trans (hu.mono (by simp)))
    (fun t x ht => ht.trans ((setRestart_evolves t x).mono (by simp))) (.refl s _)

theorem readTableCore_after (body : List Byte) (s : State) : (readTableCore body s).after = s := by
  unfold readTableCore
  split <;> rfl

theorem setSwitch_evolves (s : State) (q : Option SwitchReq) : s.evolves [.switch] { s with switch := q } :=
  State.sameBut.evolves (fun f hf => by cases f <;> simp at hf <;> rfl) rfl rfl rfl

/-- What SWITCH_BANK leaves: the state as it was, a pending switch toward another bank, or the switch cancelled. -/
theorem switchBankCore_after (body : List Byte) (s : State) :
    (switchBankCore body s).after = s ∨
      (∃ q : SwitchReq, s.switch = none ∧ q.target ≠ s.active ∧ q.dueTick = false ∧
        (∀ sec ns, q.trigger = .atTime sec ns → q.due = s.atOrPast (triggerNs sec ns)) ∧
        (switchBankCore body s).after = { s with switch := some q }) ∨
      (switchBankCore body s).after = settleTick { s with switch := none } := by
  unfold switchBankCore
  split
  · exact .inl rfl
  · split
    · exact .inl rfl
    · split
      · split
        · exact .inl rfl
        · split
          · exact .inl rfl
          · exact .inr (.inr rfl)
      · rename_i hsw
        split
        · exact .inl rfl
        · rename_i hta
          unfold acceptSwitch
          split
          · split
            · exact .inl rfl
            · split
              · exact .inr (.inl ⟨_, hsw, hta, rfl, fun _ _ h => by simp at h, rfl⟩)
              · exact .inl rfl
          · split
            · exact .inl rfl
            · exact .inr (.inl ⟨_, hsw, hta, rfl, fun _ _ h => by obtain ⟨rfl, rfl⟩ := Trigger.atTime.inj h; rfl, rfl⟩)

theorem switchBankCore_evolves (body : List Byte) (s : State) :
    s.evolves [.switch, .ser, .pins, .view] (switchBankCore body s).after := by
  obtain h | ⟨q, -, -, -, -, h⟩ | h := switchBankCore_after body s
  · rw [h]
    exact .refl s _
  · rw [h]
    exact (setSwitch_evolves s _).mono (by decide)
  · rw [h]
    exact ((setSwitch_evolves s _).mono (by decide)).trans ((settleTick_evolves _).mono (by decide))

theorem askStep_evolves (r : StepReq) (s : State) : s.evolves [.steps] (askStep r s) :=
  State.sameBut.evolves (fun f hf => by cases f <;> simp at hf <;> rfl) rfl rfl rfl

theorem stepTimeCore_evolves (body : List Byte) (s : State) : s.evolves [.steps] (stepTimeCore body s).after := by
  unfold stepTimeCore
  dsimp only
  split
  · exact .refl s _
  · split
    · exact .refl s _
    · split
      · exact .refl s _
      · exact askStep_evolves _ s

theorem setTimeCore_evolves (body : List Byte) (s : State) : s.evolves [.steps] (setTimeCore body s).after := by
  unfold setTimeCore
  split
  · exact .refl s _
  · split
    · exact .refl s _
    · exact askStep_evolves _ s

/-- What SET_TRIM leaves: the adjustment clamped, in FREE alone. -/
theorem setTrimCore_after (body : List Byte) (s : State) :
    (setTrimCore body s).after = s ∨
      s.servo.st = .free ∧
        (setTrimCore body s).after =
          { s with servo := { s.servo with a := clamp s.servoCfg.maxAdjust (signedOf 32 (fieldAt body 0 4)) } } := by
  unfold setTrimCore
  dsimp only
  split
  · exact .inl rfl
  · rename_i h
    exact .inr ⟨not_not.mp h, rfl⟩

theorem setTrimCore_evolves (body : List Byte) (s : State) : s.evolves [.servo] (setTrimCore body s).after := by
  obtain h | ⟨-, h⟩ := setTrimCore_after body s
  · rw [h]
    exact .refl s _
  · rw [h]
    exact setServo_evolves s _

/-- What ARM_ONESHOT leaves: the state as it was, or a one-shot armed at an edge later than the counter. -/
theorem armCore_after (body : List Byte) (s : State) :
    (armCore body s).after = s ∨
      ∃ n k, switchWaitsOn s n = false ∧ (s.cadRec n).mode = .oneShot ∧ s.atOrPast ((s.cadRec n).edgeTime k) = false ∧
        (armCore body s).after =
          settleTick (s.setCad n { s.cad[n] with st := .armed k ((s.cadRec n).edgeTime k) }) := by
  unfold armCore
  split
  · exact .inl rfl
  · rename_i n _
    dsimp only
    split
    · exact .inl rfl
    · rename_i hw
      split
      · exact .inl rfl
      · rename_i hm
        split
        · exact .inl rfl
        · split
          · exact .inl rfl
          · rename_i hp
            exact .inr ⟨n, _, by simpa using hw, not_not.mp hm, by simpa using hp, rfl⟩

/-- What DISARM_ONESHOT leaves: the state as it was, or a one-shot in IDLE. -/
theorem disarmCore_after (body : List Byte) (s : State) :
    (disarmCore body s).after = s ∨
      ∃ n, (s.cadRec n).mode = .oneShot ∧
        (disarmCore body s).after = settleTick (s.setCad n { s.cad[n] with st := .idle }) := by
  unfold disarmCore
  split
  · exact .inl rfl
  · rename_i n _
    split
    · exact .inl rfl
    · split
      · exact .inl rfl
      · rename_i hm
        exact .inr ⟨n, not_not.mp hm, rfl⟩

theorem setCad_settled_evolves (s : State) (n : Fin 8) (x : CadRun) :
    s.evolves [.cad, .ser, .pins, .view] (settleTick (s.setCad n x)) :=
  ((s.setCad_evolves n x).mono (by decide)).trans ((settleTick_evolves _).mono (by decide))

theorem armCore_evolves (body : List Byte) (s : State) :
    s.evolves [.cad, .ser, .pins, .view] (armCore body s).after := by
  obtain h | ⟨n, k, -, -, -, h⟩ := armCore_after body s
  · rw [h]
    exact .refl s _
  · rw [h]
    exact setCad_settled_evolves s n _

theorem disarmCore_evolves (body : List Byte) (s : State) :
    s.evolves [.cad, .ser, .pins, .view] (disarmCore body s).after := by
  obtain h | ⟨n, -, h⟩ := disarmCore_after body s
  · rw [h]
    exact .refl s _
  · rw [h]
    exact setCad_settled_evolves s n _

/-- What READ_CAPTURE leaves: the state as it was, or a line rearmed. -/
theorem readCaptureCore_after (body : List Byte) (s : State) :
    (readCaptureCore body s).after = s ∨ ∃ n, (readCaptureCore body s).after = s.setCap n s.cap[n].rearm := by
  unfold readCaptureCore
  split
  · exact .inl rfl
  · rename_i n _
    split
    · exact .inl rfl
    · split
      · exact .inr ⟨n, rfl⟩
      · exact .inl rfl

theorem readCaptureCore_evolves (body : List Byte) (s : State) : s.evolves [.cap] (readCaptureCore body s).after := by
  obtain h | ⟨n, h⟩ := readCaptureCore_after body s
  · rw [h]
    exact .refl s _
  · rw [h]
    exact s.setCap_evolves n _

theorem clearEventsCore_evolves (body : List Byte) (s : State) : s.evolves [] (clearEventsCore body s).after := by
  unfold clearEventsCore
  split
  · exact .refl s _
  · rename_i g _
    exact State.setGroup_evolves fun hs => hs g

/-! ### Every command -/

end Sys2Proof.Machine

namespace Sys2Proof

/-- The state that a command leads to. -/
def Instr.after (c : Instr) (s : Machine.State) : Machine.State :=
  match Machine.exec c s with
  | .next t => t
  | _ => s

/-- The fields that a command can change. -/
def Instr.changes : Instr → List Machine.Field
  | .coldReset =>
    [.departing, .classify, .residence, .copies, .sources, .exch, .time, .elapsed, .elapsedRem, .prevTime, .prevTime2,
      .steps, .servoCfg, .servo, .clock, .banks, .active, .switch, .cad, .ser, .pins, .view, .capRec, .cap, .requests,
      .managers, .civil, .restart, .notifyCfg]
  | .warmReset => [.departing, .residence, .sources, .exch, .servo, .switch, .cap, .requests, .restart, .ser, .pins, .view]
  | .linkUp _ => []
  | .linkDown _ => [.departing, .restart]
  | .frameReceived _ _ _ => []
  | .classifyFrame _ => [.requests, .copies]
  | .transmitStart _ => [.departing, .restart]
  | .transmitEnd _ => [.departing]
  | .residenceRecordAgeOut _ => [.residence]
  | .timingCopyIntake => Machine.intakeFields
  | .sourceTimeout _ => Machine.selectionFields
  | .probeScheduleExpiry => [.exch]
  | .pendingProbeAgeOut _ => [.exch]
  | .stepTick _ => Machine.tickAllFields
  | .holdoverExpired => [.servo]
  | .clockLoss _ _ => .servo :: Machine.tickAllFields
  | .clockRestored => [.clock, .servo]
  | .cadenceEdge _ => [.cad, .ser, .active, .switch, .pins, .view]
  | .pulseEnd _ => [.cad, .ser, .pins, .view]
  | .oneshotFire _ => [.cad, .ser, .active, .switch, .pins, .view]
  | .atTimeReached => [.cad, .ser, .active, .switch, .pins, .view]
  | .labelWordComplete _ => [.ser]
  | .captureInputChange _ => [.cap]
  | .captureAccept _ => [.cap]
  | .identify => [.requests]
  | .readStatus => [.requests]
  | .readTable => [.requests]
  | .writeTable => .requests :: Machine.writeFields
  | .switchBank => [.requests, .switch, .ser, .pins, .view]
  | .stepTime => [.requests, .steps]
  | .setTime => [.requests, .steps]
  | .setTrim => [.requests, .servo]
  | .armOneshot => [.requests, .cad, .ser, .pins, .view]
  | .disarmOneshot => [.requests, .cad, .ser, .pins, .view]
  | .readCapture => [.requests, .cap]
  | .clearEvents => [.requests]
  | .restart => [.requests, .restart]
  | .holdoffEnd _ => []
  | .tick _ => Machine.tickAllFields
  | .restoreQualificationStart => [.clock]
  | .restoreQualificationRestart => [.clock]
  | .badCommandRequest => [.requests]

/-- A command that changes a port by more than frames that join its queues. -/
def Instr.movesFrames : Instr → Bool
  | .coldReset => true
  | .warmReset => true
  | .linkUp _ => true
  | .linkDown _ => true
  | .frameReceived _ _ _ => true
  | .classifyFrame _ => true
  | .transmitStart _ => true
  | .transmitEnd _ => true
  | .stepTick _ => true
  | .clockLoss _ _ => true
  | .writeTable => true
  | .tick _ => true
  | _ => false

end Sys2Proof

namespace Sys2Proof.Machine

theorem exec_eq_after (c : Instr) (s : State) : exec c s = .next (c.after s) := by
  obtain ⟨t, h⟩ := exec_next c s
  rw [Instr.after, h]

theorem after_eq_of_exec {c : Instr} {s t : State} (h : exec c s = .next t) : c.after s = t := by
  rw [Instr.after, h]

theorem eq_after_of_exec {c : Instr} {s t : State} (h : exec c s = .next t) : t = c.after s := by
  rw [Instr.after, h]

theorem after_evolves {c : Instr} (h : c.movesFrames = false) (s : State) : s.evolves c.changes (c.after s) := by
  cases c with
  | residenceRecordAgeOut i => exact ageResidence_evolves i s
  | timingCopyIntake => exact intakeNext_evolves s
  | sourceTimeout i => exact sourceTimeout_evolves i s
  | probeScheduleExpiry => exact expireSchedule_evolves s
  | pendingProbeAgeOut i => exact agePendingProbe_evolves i s
  | holdoverExpired => exact expireHoldover_evolves s
  | clockRestored => exact clockRestored_evolves s
  | cadenceEdge n => exact cadenceEdge_evolves n s
  | pulseEnd n => exact pulseEnd_evolves n s
  | oneshotFire n => exact oneshotFire_evolves n s
  | atTimeReached => exact atTimeReached_evolves s
  | labelWordComplete m => exact completeWord_evolves m s
  | captureInputChange n => exact captureInputChange_evolves n s
  | captureAccept n => exact captureAccept_evolves n s
  | identify =>
    exact serve_evolves (F := []) (core := fun _ t => { st := .ok, body := identityBody t, after := t })
      (fun _ t => .refl t []) s
  | readStatus =>
    exact serve_evolves (F := []) (core := fun _ t => { st := .ok, body := statusBody t, after := t })
      (fun _ t => .refl t []) s
  | readTable =>
    have hcore : ∀ (b : List Byte) (t : State), t.evolves [] (readTableCore b t).after := fun b t => by
      rw [readTableCore_after]
      exact .refl t []
    exact serve_evolves hcore s
  | switchBank => exact serve_evolves switchBankCore_evolves s
  | stepTime => exact serve_evolves stepTimeCore_evolves s
  | setTime => exact serve_evolves setTimeCore_evolves s
  | setTrim => exact serve_evolves setTrimCore_evolves s
  | armOneshot => exact serve_evolves armCore_evolves s
  | disarmOneshot => exact serve_evolves disarmCore_evolves s
  | readCapture => exact serve_evolves readCaptureCore_evolves s
  | clearEvents => exact serve_evolves clearEventsCore_evolves s
  | restart => exact restartRequest_evolves s
  | holdoffEnd g => exact endHoldoff_evolves g s
  | restoreQualificationStart => exact qualificationStart_evolves s
  | restoreQualificationRestart => exact qualificationRestart_evolves s
  | badCommandRequest => exact badCommand_evolves s
  | _ => cases h

theorem warmReset_sameBut (s : State) :
    s.sameBut [.residence, .sources, .exch, .servo, .switch, .cap, .requests, .restart] (warmReset s) :=
  fun f hf => by cases f <;> simp at hf <;> rfl

theorem warmResetWhenDue_sameBut (s : State) : s.sameBut Instr.warmReset.changes (warmResetWhenDue s) := by
  unfold warmResetWhenDue
  split
  · exact (((handOverThose_sameBut _ s).mono (by decide)).trans ((warmReset_sameBut _).mono (by decide))).trans
      ((settleTick_evolves _).same.mono (by decide))
  · exact .refl s _

/-- Each command leaves every field outside its list as it was. -/
theorem after_sameBut (c : Instr) (s : State) : s.sameBut c.changes (c.after s) := by
  cases c with
  | coldReset => exact fun f hf => by cases f <;> simp [Instr.changes] at hf <;> rfl
  | warmReset => exact warmResetWhenDue_sameBut s
  | linkUp p => exact linkUp_sameBut p s
  | linkDown p => exact linkDown_sameBut p s
  | frameReceived p bytes cut => exact frameReceived_sameBut p bytes cut s
  | classifyFrame p => exact classifyNext_sameBut p s
  | transmitStart p => exact transmitStart_sameBut p s
  | transmitEnd p => exact transmitEnd_sameBut p s
  | stepTick inp =>
    rw [after_eq_of_exec (t := stepTick inp s) rfl]
    exact stepTick_sameBut inp s
  | clockLoss n inp =>
    rw [after_eq_of_exec (t := clockLoss n inp s) rfl]
    exact clockLoss_sameBut n inp s
  | writeTable => exact serve_sameBut writeTableCore_sameBut s
  | tick inp =>
    rw [after_eq_of_exec (t := tickAll inp s) rfl]
    exact tickAll_sameBut inp s
  | _ => exact (after_evolves rfl s).same

/-! ### One step -/

/-- What every command keeps, every step keeps. -/
theorem step_keeps {P : State → Prop} (hpending : ∀ (s : State) l, P s → P { s with pending := l })
    (hafter : ∀ (c : Instr) (s : State), P s → P (c.after s)) {s t : State} (hs : P s) (h : step s = .next t) : P t := by
  unfold step at h
  split at h
  · exact Host.Outcome.next.inj h ▸ hs
  · rw [eq_after_of_exec h]
    exact hafter _ _ (hpending s _ hs)

/-- Settles O1. -/
theorem stepRunsFrontCommand : Obligations.StepRunsFrontCommand := by
  intro c rest s
  constructor <;> intro h <;> simp only [step, h]

end Sys2Proof.Machine
end

section
/-!
PROOFS. The servo's moves: every command leaves the SERVO record and the servo as they were or makes one of a short list
of moves (R99, R102 to R114), so that an invariant of the two is proved once per move.
-/

namespace Sys2Proof.Machine

/-! ### The moves -/

/-- Entry to ACQUIRE (R103). -/
def Servo.acquired (fresh : Bool) (v : Servo) : Servo :=
  { v with
    st := .acquire
    integ := if fresh then -v.a * 65536 else v.integ
    locked := false
    lockCount := 0
    outlierCount := 0
    lockHeld := false
    history := [] }

/-- Entry to FREE (R102). -/
def Servo.freed (v : Servo) : Servo := { v with st := .free, lockCount := 0, outlierCount := 0 }

/-- Entry to HOLDOVER at the frequency `h` and the reading `e` (R110). -/
def Servo.heldOver (h : Int) (e : Elapsed) (v : Servo) : Servo :=
  { v with
    st := .holdover, a := h, integ := -h * 65536, locked := false, outlierCount := 0, lockHeld := false,
    holdStart := some e }

/-- Lock detection (R107), with the traced flag that the first lock sets (R108). -/
def Servo.detect (cfg : ServoCfg) (theta : Int) (v : Servo) : Servo :=
  if v.locked then
    if 4 * cfg.lockWindow < theta.natAbs then { v with locked := false, lockCount := 0 } else v
  else if theta.natAbs ≤ cfg.lockWindow then
    if v.lockCount + 1 = 8 then { v with locked := true, lockHeld := true, lockCount := 0, traced := true }
    else { v with lockCount := v.lockCount + 1 }
  else { v with lockCount := 0 }

/-- A sample applied (R104, R105) in TRACK, followed by lock detection. -/
def Servo.sampled (cfg : ServoCfg) (theta : Int) (v : Servo) : Servo :=
  Servo.detect cfg theta
    { v with
      st := .track
      a := adjustAfter cfg v.integ theta
      integ := integralAfter cfg v.integ theta
      history := pushNewest 16 (adjustAfter cfg v.integ theta) v.history
      outlierCount := 0 }

/-- An outlier counted (R106). -/
def Servo.outlier (v : Servo) : Servo := { v with outlierCount := v.outlierCount + 1 }

/-- A loss of TCLK (R114). -/
def Servo.clockLost (v : Servo) : Servo :=
  { v with
    st := .free, a := 0, integ := 0, locked := false, lockCount := 0, outlierCount := 0, lockHeld := false,
    history := [], holdStart := none }

/-- A and I clamped to a new max adjust (R101). -/
def Servo.limited (cfg : ServoCfg) (v : Servo) : Servo :=
  { v with a := clamp cfg.maxAdjust v.a, integ := clamp (cfg.maxAdjust * 65536) v.integ }

/-! ### What the operations do to the servo -/

@[simp] theorem clearLocked_servo (s : State) : (clearLocked s).servo = { s.servo with locked := false } :=
  raiseIf_servo _ _ _

@[simp] theorem enterAcquire_servo (fresh : Bool) (s : State) :
    (enterAcquire fresh s).servo = s.servo.acquired fresh := clearLocked_servo _

@[simp] theorem enterFree_servo (s : State) : (enterFree s).servo = s.servo.freed := rfl

@[simp] theorem enterHoldover_servo (s : State) :
    (enterHoldover s).servo = s.servo.heldOver (holdoverFrequency s) s.elapsed := by
  rw [enterHoldover, raise_servo, clearLocked_servo]
  rfl

@[simp] theorem servoClockLoss_servo (s : State) : (servoClockLoss s).servo = s.servo.clockLost :=
  clearLocked_servo _

theorem startWaiting_servo (s : State) : (startWaiting s).servo = s.servo :=
  (startWaiting_evolves s).same .servo (by decide)

@[simp] theorem setTraced_servo (s : State) : (setTraced s).servo = { s.servo with traced := true } := by
  unfold setTraced
  split
  · rename_i h
    rw [← h]
  · rw [settleTick_servo, startWaiting_servo]

@[simp] theorem lockDetect_servo (theta : Int) (s : State) :
    (lockDetect theta s).servo = s.servo.detect s.servoCfg theta := by
  unfold lockDetect Servo.detect
  split
  · split
    · exact raise_servo _ _
    · rfl
  · split
    · split
      · rw [setTraced_servo, raise_servo]
      · rfl
    · rfl

/-- In TRACK an applied sample is the move of that name. -/
theorem applySample_servo {theta : Int} {s : State} (h : s.servo.st = .track) :
    (applySample theta s).servo = s.servo.sampled s.servoCfg theta := by
  rw [applySample, lockDetect_servo, Servo.sampled, ← h]

theorem acquireSample_servo (o : Offset) (s : State) :
    (acquireSample o s).servo =
      if s.servoCfg.stepThreshold < o.ns.natAbs then s.servo else s.servo.sampled s.servoCfg o.ns := by
  unfold acquireSample
  split
  · rfl
  · exact applySample_servo rfl

/-! ### Predicates that every move keeps -/

/-- A predicate of the SERVO record and the servo that holds after a cold reset and is kept by every move. -/
structure ServoClosed (P : ServoCfg → Servo → Prop) : Prop where
  reset : P ServoCfg.reset Servo.reset
  warmReset {c v} : P c v → P c v.warmReset
  acquired {c v} (fresh : Bool) : P c v → P c (v.acquired fresh)
  freed {c v} : P c v → (v.st = .track → v.lockHeld = false) → P c v.freed
  heldOver {c v} (z : Int) (e : Elapsed) : P c v → P c (v.heldOver (clamp c.maxAdjust z) e)
  sampled {c v} (theta : Int) : P c v → v.st = .acquire ∨ v.st = .track → P c (v.sampled c theta)
  outlier {c v} : P c v → v.locked = true → v.outlierCount + 1 ≠ 4 → P c v.outlier
  clockLost {c v} : P c v → P c v.clockLost
  trimmed {c v} (z : Int) : P c v → P c { v with a := clamp c.maxAdjust z }
  limited {c v b c'} : P c v → decodeServo b = some c' → P c' (v.limited c')

/-- A predicate of the SERVO record and the servo, as a predicate of the state. -/
def State.servoSat (P : ServoCfg → Servo → Prop) (s : State) : Prop := P s.servoCfg s.servo

theorem servoSat_of_sameBut {P : ServoCfg → Servo → Prop} {F : List Field} {s t : State} (h : s.sameBut F t)
    (hs : s.servoSat P) (hc : Field.servoCfg ∉ F) (hv : Field.servo ∉ F) : t.servoSat P := by
  have hcfg : t.servoCfg = s.servoCfg := h .servoCfg hc
  have hservo : t.servo = s.servo := h .servo hv
  rwa [State.servoSat, hcfg, hservo]

section
variable {P : ServoCfg → Servo → Prop} (hP : ServoClosed P)
include hP

theorem ServoClosed.enterAcquire (fresh : Bool) {s : State} (hs : s.servoSat P) :
    (enterAcquire fresh s).servoSat P := by
  have hcfg : (Machine.enterAcquire fresh s).servoCfg = s.servoCfg :=
    (enterAcquire_evolves fresh s).same .servoCfg (by decide)
  rw [State.servoSat, hcfg, enterAcquire_servo]
  exact hP.acquired fresh hs

theorem ServoClosed.enterHoldover {s : State} (hs : s.servoSat P) : (enterHoldover s).servoSat P := by
  have hcfg : (Machine.enterHoldover s).servoCfg = s.servoCfg := (enterHoldover_evolves s).same .servoCfg (by decide)
  rw [State.servoSat, hcfg, enterHoldover_servo]
  exact hP.heldOver _ _ hs

theorem ServoClosed.servoSelection (now : Option SourceName) {s : State} (hs : s.servoSat P) :
    (servoSelection now s).servoSat P := by
  unfold Machine.servoSelection
  split
  · split
    · exact hP.enterAcquire true hs
    · exact hs
  · exact hs
  · exact hs
  · rename_i h
    exact hP.freed hs fun ht => nomatch h.symm.trans ht
  · exact hP.enterAcquire false hs
  · split
    · exact hP.enterHoldover hs
    · rename_i h
      exact hP.freed hs fun _ => by simpa using h
  · exact hP.enterAcquire true hs
  · exact hs

theorem ServoClosed.rerunSelection (old : Option SourceName) {s : State} (hs : s.servoSat P) :
    (rerunSelection old s).servoSat P := by
  unfold Machine.rerunSelection
  dsimp only
  split
  · exact hs
  · refine hP.servoSelection _ (servoSat_of_sameBut (F := [.sources, .exch]) ?_ hs (by decide) (by decide))
    exact ((((setSources_evolves s _).mono (by decide)).trans ((raise_evolves .sourceChanged _).mono (by decide))).trans
      ((exchangeSourceChange_evolves _ _).mono (by decide))).same

theorem ServoClosed.lockedSample (theta : Int) {s : State} (hs : s.servoSat P) (ht : s.servo.st = .track) :
    (applySample theta s).servoSat P := by
  have hcfg : (applySample theta s).servoCfg = s.servoCfg := (applySample_evolves theta s).same .servoCfg (by decide)
  rw [State.servoSat, hcfg, applySample_servo ht]
  exact hP.sampled theta hs (.inr ht)

theorem ServoClosed.acquireSample (o : Offset) {s : State} (hs : s.servoSat P) (ha : s.servo.st = .acquire) :
    (acquireSample o s).servoSat P := by
  have hcfg : (Machine.acquireSample o s).servoCfg = s.servoCfg :=
    (acquireSample_evolves o s).same .servoCfg (by decide)
  rw [State.servoSat, hcfg, acquireSample_servo]
  split
  · exact hs
  · exact hP.sampled _ hs (.inl ha)

theorem ServoClosed.servoSample (o : Offset) {s : State} (hs : s.servoSat P) : (servoSample o s).servoSat P := by
  unfold Machine.servoSample
  split
  · exact hs
  · rename_i h
    exact hP.acquireSample o hs h
  · rename_i h
    unfold trackSample
    split
    · rename_i hout
      split
      · refine hP.acquireSample o (hP.enterAcquire false hs) ?_
        rw [enterAcquire_servo]
        rfl
      · rename_i hcount
        exact hP.outlier hs hout.1 hcount
    · exact hP.lockedSample _ hs h
  · exact hs

theorem ServoClosed.newMarkDiff (m : Int) (seq : BitVec 16) {s : State} (hs : s.servoSat P) :
    (newMarkDiff m seq s).servoSat P := by
  unfold Machine.newMarkDiff
  dsimp only
  split
  · exact hs
  · exact hP.servoSample _ hs

theorem ServoClosed.exchangeTake (c : Copy) (h : Hdr) {s : State} (hs : s.servoSat P) :
    (exchangeTake c h s).servoSat P := by
  have hone : (oneStepMark c h s).servoSat P := by
    unfold oneStepMark
    dsimp only
    split
    · exact hs
    · exact hP.newMarkDiff _ _ (servoSat_of_sameBut (renewTemplate_evolves _ _).same hs (by decide) (by decide))
  have hfollow : (followMatch c h s).servoSat P := by
    unfold followMatch
    split
    · exact hs
    · split
      · dsimp only
        split
        · exact hP.newMarkDiff _ _ hs
        · exact hs
      · exact hs
  have htwo := servoSat_of_sameBut (twoStepMark_evolves c h s).same hs (by decide) (by decide)
  have hreply := servoSat_of_sameBut (probeReply_evolves c h s).same hs (by decide) (by decide)
  unfold Machine.exchangeTake
  dsimp only
  split
  · exact hs
  · split
    · split
      · exact htwo
      · exact hone
    · split
      · exact hfollow
      · split
        · split
          · exact hreply
          · exact hs
        · exact hs

theorem ServoClosed.takeBeacon (content : List Byte) (pos : Nat) (h : Hdr) (st : Stamp) {s : State}
    (hs : s.servoSat P) : (takeBeacon content pos h st s).servoSat P := by
  unfold Machine.takeBeacon
  dsimp only
  split
  · exact hs
  · split
    · split
      · split
        · exact hs
        · split
          · exact hP.rerunSelection _ hs
          · exact hs
      · exact hs
    · split
      · exact hs
      · split
        · split
          · split
            · exact hP.rerunSelection _ hs
            · exact hs
          · exact hs
        · exact hs

theorem ServoClosed.intakeNext {s : State} (hs : s.servoSat P) : (intakeNext s).servoSat P := by
  unfold Machine.intakeNext
  split
  · exact hs
  · dsimp only
    split
    · split
      · exact hP.takeBeacon _ _ _ _ hs
      · exact hP.exchangeTake _ _ hs
    · exact hs

theorem ServoClosed.sourceTimeout (i : Fin 8) {s : State} (hs : s.servoSat P) : (sourceTimeout i s).servoSat P := by
  unfold Machine.sourceTimeout
  dsimp only
  split
  · split
    · split
      · exact hP.rerunSelection _ hs
      · exact hs
    · exact hs
  · exact hs

theorem ServoClosed.expireHoldover {s : State} (hs : s.servoSat P) : (expireHoldover s).servoSat P := by
  unfold Machine.expireHoldover
  split
  · rename_i hover
    have hst : s.servo.st = .holdover := by
      unfold holdoverOver at hover
      split at hover
      · assumption
      · cases hover
    rw [State.servoSat, raise_servo, raise_servoCfg]
    exact hP.freed hs fun ht => nomatch hst.symm.trans ht
  · exact hs

theorem ServoClosed.clockLoss (n : Nat) (inp : TickIn) {s : State} (hs : s.servoSat P) :
    (clockLoss n inp s).servoSat P := by
  by_cases h : s.clock = .normal
  · rw [clockLoss_of_normal n inp h]
    have hcaught : (lossCaughtUp n inp s).servoSat P :=
      servoSat_of_sameBut (lossCaughtUp_evolves n inp s).same hs (by decide) (by decide)
    have hlost : (raise .clockLoss (servoClockLoss (lossCaughtUp n inp s))).servoSat P := by
      have hcfg : (servoClockLoss (lossCaughtUp n inp s)).servoCfg = (lossCaughtUp n inp s).servoCfg :=
        (servoClockLoss_evolves _).same .servoCfg (by decide)
      rw [State.servoSat, raise_servo, raise_servoCfg, hcfg, servoClockLoss_servo]
      exact hP.clockLost hcaught
    exact servoSat_of_sameBut (tickEnd_sameBut inp _) hlost (by decide) (by decide)
  · rw [clockLoss_of_backup n inp h]
    exact hs

theorem ServoClosed.clockRestored {s : State} (hs : s.servoSat P) : (clockRestored s).servoSat P := by
  have hraise : (raise .clockRestored { s with clock := .normal }).servoSat P := by
    rw [State.servoSat, raise_servo, raise_servoCfg]
    exact hs
  unfold Machine.clockRestored
  dsimp only
  split
  · split
    · split
      · exact hP.enterAcquire true hraise
      · exact hraise
    · exact hs
  · exact hs

theorem ServoClosed.warmResetWhenDue {s : State} (hs : s.servoSat P) : (warmResetWhenDue s).servoSat P := by
  unfold Machine.warmResetWhenDue
  split
  · have hdep : (departuresBeforeReset s).servoSat P :=
      servoSat_of_sameBut (handOverThose_sameBut _ s) hs (by decide) (by decide)
    exact servoSat_of_sameBut (s := Machine.warmReset (departuresBeforeReset s)) (settleTick_evolves _).same
      (hP.warmReset hdep) (by decide) (by decide)
  · exact hs

theorem ServoClosed.applyServo {b : List Byte} {cfg : ServoCfg} (hb : decodeServo b = some cfg) {s : State}
    (hs : s.servoSat P) : (applyServo cfg s).servoSat P := by
  have hite : ∀ {t u : State} (c : Prop) [Decidable c], t.servoSat P → (t.servoSat P → u.servoSat P) →
      (if c then t else u).servoSat P := fun c _ ht hu => by
    split
    · exact ht
    · exact hu ht
  unfold Machine.applyServo
  dsimp only
  refine hite _ (hite _ (hite _ (?_ : State.servoSat P (State.mk ..)) fun h => hP.rerunSelection _ h) fun h => ?_)
    fun h => hP.expireHoldover h
  · rw [State.servoSat]
    split <;> exact hP.limited hs hb
  · exact servoSat_of_sameBut (expireSchedule_evolves _).same h (by decide) (by decide)

theorem ServoClosed.writeEntry {t : TableId} {i : Nat} {b : List Byte} {s u : State} {c : Bool} (hs : s.servoSat P)
    (h : writeEntry t i b s = .applied c u) : u.servoSat P := by
  obtain ⟨n, e, -, rfl⟩ | ⟨-, -, -, rfl⟩ | ⟨cfg, hcfg, rfl⟩ | rfl | ⟨k, n, r, -, -, rfl⟩ | ⟨k, n, r, -, rfl⟩ |
    ⟨k, m, r, -, rfl⟩ | ⟨n, r, -, rfl⟩ | ⟨g, r, -, rfl⟩ | ⟨n, rfl⟩ := writeEntry_applied h
  · exact hs
  · exact servoSat_of_sameBut (s.setPort_sameBut _ _) hs (by decide) (by decide)
  · exact hP.applyServo hcfg hs
  · exact hs
  · exact servoSat_of_sameBut (storeCad_evolves k n r s).same hs (by decide) (by decide)
  · exact hs
  · exact servoSat_of_sameBut (storeLabel_evolves k m r s).same hs (by decide) (by decide)
  · exact hs
  · exact hs
  · exact hs

omit hP in
theorem servoSat_serve {c : Command} {core : List Byte → State → Reply}
    (hcore : ∀ (b : List Byte) (s : State), s.servoSat P → (core b s).after.servoSat P) {s : State}
    (hs : s.servoSat P) : (serve c core s).servoSat P :=
  serve_keeps (P := State.servoSat P) (fun _ _ _ _ h => h)
    (fun _ _ h hs => servoSat_of_sameBut h.same hs (by decide) (by decide)) hcore hs

theorem ServoClosed.setTrim {s : State} (hs : s.servoSat P) : (serve .setTrim setTrimCore s).servoSat P := by
  refine servoSat_serve (fun b t ht => ?_) hs
  obtain h | ⟨-, h⟩ := setTrimCore_after b t
  · rwa [h]
  · rw [h]
    exact hP.trimmed _ ht

/-- A closed predicate is kept by every command. -/
theorem ServoClosed.after (c : Instr) {s : State} (hs : s.servoSat P) : (c.after s).servoSat P := by
  cases c with
  | coldReset => exact hP.reset
  | warmReset => exact hP.warmResetWhenDue hs
  | timingCopyIntake => exact hP.intakeNext hs
  | sourceTimeout i => exact hP.sourceTimeout i hs
  | holdoverExpired => exact hP.expireHoldover hs
  | clockLoss n inp =>
    rw [after_eq_of_exec (t := Machine.clockLoss n inp s) rfl]
    exact hP.clockLoss n inp hs
  | clockRestored => exact hP.clockRestored hs
  | writeTable => exact servoSat_serve (fun b t ht => writeTableCore_keeps hP.writeEntry b ht) hs
  | setTrim => exact hP.setTrim hs
  | _ => exact servoSat_of_sameBut (after_sameBut _ s) hs (by simp [Instr.changes]) (by simp [Instr.changes])

theorem ServoClosed.step {s t : State} (hs : s.servoSat P) (h : step s = .next t) : t.servoSat P :=
  step_keeps (P := State.servoSat P) (fun _ _ h => h) (fun c _ h => hP.after c h) hs h

end

/-! ### The adjustment stays within its bounds -/

theorem clamp_natAbs_le (x : Nat) (z : Int) : (clamp x z).natAbs ≤ x := by
  unfold clamp
  omega

/-- What accepting a SERVO record says of its fields (R54, R77, R101). -/
theorem decodeServo_legal {b : List Byte} {c : ServoCfg} (h : decodeServo b = some c) : c.legal := by
  have hfield : ∀ off len, fieldAt b off len < 256 ^ len := fun off len =>
    (beNat_lt _).trans_le (Nat.pow_le_pow_right (by decide) (by simp [slice]))
  have hki := hfield 13 2
  have hlim := hfield 27 2
  unfold decodeServo at h
  dsimp only at h
  split at h
  · rename_i hc
    obtain ⟨hdom, hmul, hmul', hcode, hcode', hadj, hkp', hthr, hgate, hgate', hwin, hwin'⟩ := hc
    obtain rfl := Option.some.inj h
    exact ⟨⟨hdom, hmul, hmul'⟩, ⟨hcode, hcode'⟩, ⟨le_min (by decide) hadj, Nat.min_le_left _ _⟩, hkp',
      Nat.le_of_lt_succ hki, hthr, ⟨hgate, hgate'⟩, ⟨hwin, hwin'⟩, Nat.le_of_lt_succ hlim⟩
  · cases h

/-- R101 over the SERVO record and the servo. -/
abbrev adjustBound (c : ServoCfg) (v : Servo) : Prop :=
  (1 ≤ c.maxAdjust ∧ c.maxAdjust ≤ maxAdjustLimit) ∧ v.a.natAbs ≤ c.maxAdjust ∧ v.integ.natAbs ≤ c.maxAdjust * 65536

theorem detect_adjust (c : ServoCfg) (theta : Int) (v : Servo) :
    (v.detect c theta).a = v.a ∧ (v.detect c theta).integ = v.integ := by
  unfold Servo.detect
  split_ifs <;> exact ⟨rfl, rfl⟩

theorem adjustBound_closed : ServoClosed adjustBound where
  reset := by decide
  warmReset := fun ⟨hmax, ha, _⟩ => ⟨hmax, ha, Nat.zero_le _⟩
  acquired := fun fresh ⟨hmax, ha, hi⟩ => by
    refine ⟨hmax, ha, ?_⟩
    cases fresh
    · exact hi
    · simp only [Servo.acquired, if_true]
      omega
  freed := fun h _ => h
  heldOver := fun {c _} z _ ⟨hmax, _, _⟩ => by
    have := clamp_natAbs_le c.maxAdjust z
    refine ⟨hmax, this, ?_⟩
    simp only [Servo.heldOver]
    omega
  sampled := fun {c v} theta ⟨hmax, _, _⟩ _ => by
    obtain ⟨ha, hi⟩ := detect_adjust c theta
      { v with
        st := .track
        a := adjustAfter c v.integ theta
        integ := integralAfter c v.integ theta
        history := pushNewest 16 (adjustAfter c v.integ theta) v.history
        outlierCount := 0 }
    refine ⟨hmax, ?_, ?_⟩
    · rw [Servo.sampled, ha]
      exact clamp_natAbs_le _ _
    · rw [Servo.sampled, hi]
      exact_mod_cast clamp_natAbs_le (c.maxAdjust * 65536) _
  outlier := fun h _ _ => h
  clockLost := fun ⟨hmax, _, _⟩ => ⟨hmax, Nat.zero_le _, Nat.zero_le _⟩
  trimmed := fun z ⟨hmax, _, hi⟩ => ⟨hmax, clamp_natAbs_le _ z, hi⟩
  limited := fun {_ _ _ c'} _ h => by
    obtain ⟨-, -, hmax, -⟩ := decodeServo_legal h
    exact ⟨hmax, clamp_natAbs_le _ _, by exact_mod_cast clamp_natAbs_le (c'.maxAdjust * 65536) _⟩

/-! ### The counts and the history -/

/-- R105 to R107: the capacity of the history and the bounds of the counts. -/
abbrev countBound (_ : ServoCfg) (v : Servo) : Prop := v.history.length ≤ 16 ∧ v.lockCount < 8 ∧ v.outlierCount < 4

theorem countBound_closed : ServoClosed countBound where
  reset := by decide
  warmReset := fun _ => by simp [countBound, Servo.warmReset, Servo.reset]
  acquired := fun _ _ => by simp [countBound, Servo.acquired]
  freed := fun ⟨hh, _, _⟩ _ => ⟨hh, (by decide : 0 < 8), (by decide : 0 < 4)⟩
  heldOver := fun _ _ ⟨hh, hl, _⟩ => ⟨hh, hl, (by decide : 0 < 4)⟩
  sampled := fun {c v} theta ⟨_, hl, _⟩ _ => by
    have hh : (pushNewest 16 (adjustAfter c v.integ theta) v.history).length ≤ 16 := by
      rw [pushNewest_length]
      exact Nat.min_le_left _ _
    unfold Servo.sampled Servo.detect
    split_ifs with _ _ _ hcount
    · exact ⟨hh, (by decide : 0 < 8), (by decide : 0 < 4)⟩
    · exact ⟨hh, hl, (by decide : 0 < 4)⟩
    · exact ⟨hh, (by decide : 0 < 8), (by decide : 0 < 4)⟩
    · exact ⟨hh, Nat.lt_of_le_of_ne (Nat.succ_le_of_lt hl) hcount, (by decide : 0 < 4)⟩
    · exact ⟨hh, (by decide : 0 < 8), (by decide : 0 < 4)⟩
  outlier := fun ⟨hh, hl, ho⟩ _ hne => ⟨hh, hl, Nat.lt_of_le_of_ne (Nat.succ_le_of_lt ho) hne⟩
  clockLost := fun _ => by simp [countBound, Servo.clockLost]
  trimmed := fun _ h => h
  limited := fun h _ => h

/-! ### The lock flags -/

/-- R102, R103, R106 to R108 over the servo. -/
abbrev lockFlags (_ : ServoCfg) (v : Servo) : Prop :=
  (v.locked = true → v.lockHeld = true) ∧ (v.lockHeld = true → v.st = .track) ∧
    (v.st = .free → v.lockCount = 0 ∧ v.outlierCount = 0) ∧ (v.locked = false → v.outlierCount = 0) ∧
    (v.lockHeld = true → v.traced = true)

theorem lockFlags_closed : ServoClosed lockFlags where
  reset := by decide
  warmReset := fun _ => by simp [lockFlags, Servo.warmReset, Servo.reset]
  acquired := fun _ _ => by simp [lockFlags, Servo.acquired]
  freed := fun {_ v} ⟨hlock, hheld, _, _, _⟩ hfree => by
    have hno : v.lockHeld = false := by
      by_contra h
      exact h (hfree (hheld (by simpa using h)))
    refine ⟨hlock, fun h => ?_, fun _ => ⟨rfl, rfl⟩, fun _ => rfl, fun h => ?_⟩
    · exact absurd (hno.symm.trans h) (by decide)
    · exact absurd (hno.symm.trans h) (by decide)
  heldOver := fun _ _ _ => by simp [lockFlags, Servo.heldOver]
  sampled := fun {c v} theta ⟨hlock, hheld, _, _, htr⟩ _ => by
    unfold Servo.sampled Servo.detect
    split_ifs with h
    · exact ⟨fun h => (by cases h), fun _ => rfl, fun h => (by cases h), fun _ => rfl, htr⟩
    · exact ⟨hlock, fun _ => rfl, fun h => (by cases h), fun _ => rfl, htr⟩
    · exact ⟨fun _ => rfl, fun _ => rfl, fun h => (by cases h), fun _ => rfl, fun _ => rfl⟩
    · exact ⟨hlock, fun _ => rfl, fun h => (by cases h), fun _ => rfl, htr⟩
    · exact ⟨hlock, fun _ => rfl, fun h => (by cases h), fun _ => rfl, htr⟩
  outlier := fun {_ v} ⟨hlock, hheld, _, _, htr⟩ hl _ => by
    have hst : v.st = .track := hheld (hlock hl)
    refine ⟨hlock, hheld, fun h => ?_, fun h => ?_, htr⟩
    · exact nomatch hst.symm.trans h
    · exact nomatch hl.symm.trans h
  clockLost := fun _ => by simp [lockFlags, Servo.clockLost]
  trimmed := fun _ h => h
  limited := fun h _ => h

/-- Settles O9: the flags are kept by each move of the servo. -/
theorem lockFlagsAgree : Obligations.LockFlagsAgree := by
  intro s t ⟨⟨hlock, hheld, hfree, hout⟩, htr⟩ h
  obtain ⟨hlock', hheld', hfree', hout', htr'⟩ := lockFlags_closed.step ⟨hlock, hheld, hfree, hout, htr⟩ h
  exact ⟨⟨hlock', hheld', hfree', hout'⟩, htr'⟩

/-! ### The time counter -/

theorem ofTotal_ok {v : Nat} (h : v < limitTotal) : (TimeVal.ofTotal v).sec < 2 ^ 48 ∧ (TimeVal.ofTotal v).ns < 10 ^ 9 := by
  have hv : v < 2 ^ 48 * 10 ^ 9 * 2 ^ 32 := h
  simp only [TimeVal.ofTotal]
  omega

theorem advance_ok (t : TimeVal) (amount : Nat) : (t.advance amount).sec < 2 ^ 48 ∧ (t.advance amount).ns < 10 ^ 9 := by
  unfold TimeVal.advance
  split
  · rename_i h
    exact ofTotal_ok h
  · decide

theorem stepResult_ok {t u : TimeVal} {r : StepReq} (h : r.result t = some u) : u.sec < 2 ^ 48 ∧ u.ns < 10 ^ 9 := by
  rcases r with amount | ⟨sec, ns⟩
  · simp only [StepReq.result] at h
    split at h
    · rename_i hv
      obtain rfl := Option.some.inj h
      refine ofTotal_ok ?_
      have hfrac := Nat.mod_lt t.frac.toNat (show 0 < 2 ^ 24 by decide)
      have hlimit : limitTotal = limitNs * 256 * 2 ^ 24 := by decide
      refine lt_of_lt_of_eq ?_ hlimit.symm
      omega
    · cases h
  · simp only [StepReq.result] at h
    split at h
    · rename_i hv
      obtain rfl := Option.some.inj h
      exact hv
    · cases h

@[simp] theorem makeStep_time (t : TimeVal) (s : State) : (makeStep t s).time = t := by
  have htold : (stepTold t s).time = t := raise_time _ _
  have hrest : (stepTold t s).evolves [.cad, .cap, .ser, .active, .switch] (makeStep t s) := by
    rw [makeStep_eq]
    exact (((stepCads_evolves _).mono (by decide)).trans ((stepMarked_evolves _).mono (by decide))).trans
      ((reevaluateSwitch_evolves _ _).mono (by decide))
  exact (hrest.same .time (by decide)).trans htold

theorem takeStep_timeOk (r : StepReq) {s : State} (hs : s.timeOk) : (takeStep r s).timeOk := by
  unfold takeStep
  split
  · rename_i t ht
    rw [State.timeOk, makeStep_time]
    exact stepResult_ok ht
  · exact hs

theorem timeOk_of_sameBut {F : List Field} {s t : State} (h : s.sameBut F t) (hs : s.timeOk) (hF : Field.time ∉ F) :
    t.timeOk := by
  have htime : t.time = s.time := h .time hF
  rwa [State.timeOk, htime]

theorem tickAll_timeOk (inp : TickIn) (s : State) : (tickAll inp s).timeOk := by
  have hstart : (tickStart inp s).time = s.time.advance s.increment := rfl
  have hsteps : (takeSteps (tickStart inp s)).timeOk :=
    List.foldlRecOn (motive := State.timeOk) _ _ (show State.timeOk _ from hstart ▸ advance_ok _ _)
      fun t ht r _ => takeStep_timeOk r ht
  rw [tickAll_eq]
  exact timeOk_of_sameBut (tickEnd_sameBut inp _) hsteps (by decide)

theorem clockLoss_timeOk (n : Nat) (inp : TickIn) {s : State} (hs : s.timeOk) : (clockLoss n inp s).timeOk := by
  by_cases h : s.clock = .normal
  · have hadvance : (lossAdvance n inp s).timeOk := advance_ok _ _
    rw [clockLoss_of_normal n inp h]
    refine timeOk_of_sameBut (F := .servo :: tickEndFields ++ [.active, .switch]) ?_ hadvance (by decide)
    exact (((((catchUpCads_evolves _).same.mono (by decide)).trans ((reevaluateSwitch_evolves _ _).same.mono (by decide))).trans
      ((servoClockLoss_evolves _).same.mono (by decide))).trans ((raise_evolves _ _).same.mono (by decide))).trans
      ((tickEnd_sameBut inp _).mono (by decide))
  · rwa [clockLoss_of_backup n inp h]

theorem after_timeOk (c : Instr) {s : State} (hs : s.timeOk) : (c.after s).timeOk := by
  cases c with
  | coldReset => exact ⟨(by decide : 0 < 2 ^ 48), (by decide : 0 < 10 ^ 9)⟩
  | tick inp =>
    rw [after_eq_of_exec (t := tickAll inp s) rfl]
    exact tickAll_timeOk inp s
  | stepTick inp =>
    rw [after_eq_of_exec (t := stepTick inp s) rfl, stepTick]
    split
    · exact hs
    · exact tickAll_timeOk inp s
  | clockLoss n inp =>
    rw [after_eq_of_exec (t := clockLoss n inp s) rfl]
    exact clockLoss_timeOk n inp hs
  | _ => exact timeOk_of_sameBut (after_sameBut _ s) hs (by simp [Instr.changes])

/-- Settles O4: the counter through its advance and its steps, the adjustment through the moves of the servo. -/
theorem countersAndAdjustmentStayInRange : Obligations.CountersAndAdjustmentStayInRange :=
  ⟨fun _ _ hs h => step_keeps (P := State.timeOk) (fun _ _ h => h) (fun c _ h => after_timeOk c h) hs h,
    fun _ _ hs h => adjustBound_closed.step hs h⟩

end Sys2Proof.Machine
end

section
/-!
PROOFS. The capacities of the request queue, the residence table and the exchange unit (R41, R80, R83, R193).
-/

namespace Sys2Proof.Machine

/-! ### The request queue -/

theorem requestsOk_of_sameBut {F : List Field} {s t : State} (h : s.sameBut F t) (hs : s.requestsOk)
    (hF : Field.requests ∉ F) : t.requestsOk := by
  have hreq : t.requests = s.requests := h .requests hF
  rwa [State.requestsOk, hreq]

theorem receiveRequest_requestsOk (p : Port) (bytes : List Byte) {s : State} (hs : s.requestsOk) :
    (receiveRequest p bytes s).requestsOk := by
  unfold receiveRequest
  dsimp only
  split
  · exact hs
  · split
    · rename_i hroom
      show (s.requests ++ [_]).length ≤ 4
      simpa using hroom
    · exact hs

theorem classifyNext_requestsOk (p : Port) {s : State} (hs : s.requestsOk) : (classifyNext p s).requestsOk := by
  unfold classifyNext
  split
  · exact hs
  · rename_i r rest _
    have hpop : (s.setPort p { s.port p with records := rest }).requestsOk :=
      requestsOk_of_sameBut (s.setPort_sameBut p _) hs (by decide)
    unfold applyDisposition
    dsimp only
    split
    · exact receiveRequest_requestsOk p _ hpop
    · split
      · rw [State.requestsOk, arrive_requests]
        split <;> exact hpop
      · split <;> exact hpop

theorem pop_requestsOk {s : State} {r : Request} {rest : List Request} (hq : s.requests = r :: rest)
    (hs : s.requestsOk) : State.requestsOk { s with requests := rest } := by
  rw [State.requestsOk, hq] at hs
  exact Nat.le_of_succ_le hs

theorem serve_requestsOk {c : Command} {core : List Byte → State → Reply} {F : List Field}
    (hcore : ∀ (b : List Byte) (s : State), s.sameBut F (core b s).after) (hF : Field.requests ∉ F) {s : State}
    (hs : s.requestsOk) : (serve c core s).requestsOk :=
  serve_keeps (P := State.requestsOk) (fun _ _ _ hq h => pop_requestsOk hq h)
    (fun _ _ h hs => requestsOk_of_sameBut h.same hs (by decide)) (fun b t ht => requestsOk_of_sameBut (hcore b t) ht hF) hs

theorem after_requestsOk (c : Instr) {s : State} (hs : s.requestsOk) : (c.after s).requestsOk := by
  have hresp : ∀ s t : State, s.evolves [] t → s.requestsOk → t.requestsOk := fun _ _ h hs =>
    requestsOk_of_sameBut h.same hs (by decide)
  have hreq : ∀ (s : State) r rest, s.requests = r :: rest → s.requestsOk → State.requestsOk { s with requests := rest } :=
    fun _ _ _ hq h => pop_requestsOk hq h
  cases c with
  | coldReset => exact Nat.zero_le _
  | warmReset =>
    show (warmResetWhenDue s).requestsOk
    unfold warmResetWhenDue
    split
    · rw [State.requestsOk, settleTick_requests]
      exact Nat.zero_le _
    · exact hs
  | classifyFrame p => exact classifyNext_requestsOk p hs
  | identify =>
    exact serve_requestsOk (F := []) (core := fun _ t => { st := .ok, body := identityBody t, after := t })
      (fun _ t => .refl t []) (by decide) hs
  | readStatus =>
    exact serve_requestsOk (F := []) (core := fun _ t => { st := .ok, body := statusBody t, after := t })
      (fun _ t => .refl t []) (by decide) hs
  | readTable =>
    have hcore : ∀ (b : List Byte) (t : State), t.sameBut [] (readTableCore b t).after := fun b t => by
      rw [readTableCore_after]
      exact .refl t []
    exact serve_requestsOk hcore (by decide) hs
  | writeTable => exact serve_requestsOk writeTableCore_sameBut (by decide) hs
  | switchBank => exact serve_requestsOk (fun b t => (switchBankCore_evolves b t).same) (by decide) hs
  | stepTime => exact serve_requestsOk (fun b t => (stepTimeCore_evolves b t).same) (by decide) hs
  | setTime => exact serve_requestsOk (fun b t => (setTimeCore_evolves b t).same) (by decide) hs
  | setTrim => exact serve_requestsOk (fun b t => (setTrimCore_evolves b t).same) (by decide) hs
  | armOneshot => exact serve_requestsOk (fun b t => (armCore_evolves b t).same) (by decide) hs
  | disarmOneshot => exact serve_requestsOk (fun b t => (disarmCore_evolves b t).same) (by decide) hs
  | readCapture => exact serve_requestsOk (fun b t => (readCaptureCore_evolves b t).same) (by decide) hs
  | clearEvents => exact serve_requestsOk (fun b t => (clearEventsCore_evolves b t).same) (by decide) hs
  | restart => exact restartRequest_keeps (P := State.requestsOk) hreq hresp (fun _ _ h => h) hs
  | badCommandRequest => exact badCommand_keeps (P := State.requestsOk) hreq hresp hs
  | _ => exact requestsOk_of_sameBut (after_sameBut _ s) hs (by simp [Instr.changes])

/-! ### The residence table -/

theorem residenceOk_of_sameBut {F : List Field} {s t : State} (h : s.sameBut F t) (hs : s.residenceOk)
    (hF : Field.residence ∉ F) : t.residenceOk := by
  have hres : t.residence = s.residence := h .residence hF
  rwa [State.residenceOk, hres]

theorem residenceOk_of_sublist {s t : State} (h : t.residence.Sublist s.residence) (hs : s.residenceOk) :
    t.residenceOk :=
  ⟨h.length_le.trans hs.1, hs.2.sublist h⟩

theorem joinResidence_ok {r : ResRec} {l : List ResRec} (hl : l.Pairwise fun a b => a.sameKey b = false) :
    (joinResidence r l).length ≤ 8 ∧ (joinResidence r l).Pairwise fun a b => a.sameKey b = false := by
  constructor
  · rw [joinResidence, pushNewest_length]
    exact Nat.min_le_left _ _
  · refine List.Pairwise.sublist (List.drop_sublist _ _) (List.pairwise_append.mpr ⟨?_, by simp, ?_⟩)
    · exact hl.sublist List.filter_sublist
    · intro a ha b hb
      rw [List.mem_singleton.mp hb]
      simpa using (List.mem_filter.mp ha).2

theorem consult_residenceOk (p : Port) (bytes : List Byte) (ingress egress : Stamp) (mark : CorrMark) {s : State}
    (hs : s.residenceOk) : (consult p bytes ingress egress mark s).2.residenceOk := by
  unfold consult
  dsimp only
  split
  · exact hs
  · split
    · exact joinResidence_ok hs.2
    · split
      · exact hs
      · split
        · split
          · exact residenceOk_of_sublist (s := s) List.filter_sublist hs
          · exact residenceOk_of_sameBut (raise_evolves _ s).same hs (by decide)
        · exact hs

theorem handOver_residenceOk (d : Departure) {s : State} (hs : s.residenceOk) : (handOver d s).residenceOk := by
  obtain ⟨ing, mark, -, h⟩ | ⟨seq, -, h⟩ | ⟨-, h⟩ := handOver_cases d s
  · rw [h]
    exact residenceOk_of_sameBut (State.setPort_sameBut _ _ _) (consult_residenceOk _ _ _ _ _ hs) (by decide)
  · rw [h]
    exact residenceOk_of_sameBut (probeDeparted_evolves _ _ s).same hs (by decide)
  · rwa [h]

theorem handOverThose_residenceOk (now : Departure → Bool) {s : State} (hs : s.residenceOk) :
    (handOverThose now s).residenceOk :=
  List.foldlRecOn (motive := State.residenceOk) _ _ (show State.residenceOk _ from hs)
    fun _ ht d _ => handOver_residenceOk d ht

theorem tickEnd_residenceOk (inp : TickIn) {s : State} (hs : s.residenceOk) : (tickEnd inp s).residenceOk := by
  refine residenceOk_of_sameBut (tickOutputs_evolves _).same (handOverThose_residenceOk _ ?_) (by decide)
  exact residenceOk_of_sameBut ((takeIngress_sameBut .n inp.rxN s).trans (takeIngress_sameBut .d inp.rxD _)) hs (by decide)

theorem tickAll_residenceOk (inp : TickIn) {s : State} (hs : s.residenceOk) : (tickAll inp s).residenceOk := by
  rw [tickAll_eq]
  exact tickEnd_residenceOk inp (residenceOk_of_sameBut (takeSteps_evolves _).same
    (residenceOk_of_sameBut (tickStart_evolves inp s).same hs (by decide)) (by decide))

theorem clockLoss_residenceOk (n : Nat) (inp : TickIn) {s : State} (hs : s.residenceOk) :
    (clockLoss n inp s).residenceOk := by
  by_cases h : s.clock = .normal
  · rw [clockLoss_of_normal n inp h, lossCaughtUp]
    refine tickEnd_residenceOk inp (residenceOk_of_sameBut (raise_evolves _ _).same ?_ (by decide))
    refine residenceOk_of_sameBut (servoClockLoss_evolves _).same ?_ (by decide)
    refine residenceOk_of_sameBut (reevaluateSwitch_evolves _ _).same ?_ (by decide)
    refine residenceOk_of_sameBut (catchUpCads_evolves _).same ?_ (by decide)
    exact residenceOk_of_sameBut (lossAdvance_evolves n inp s).same hs (by decide)
  · rwa [clockLoss_of_backup n inp h]

theorem after_residenceOk (c : Instr) {s : State} (hs : s.residenceOk) : (c.after s).residenceOk := by
  cases c with
  | coldReset => exact ⟨Nat.zero_le _, .nil⟩
  | warmReset =>
    show (warmResetWhenDue s).residenceOk
    unfold warmResetWhenDue
    split
    · rw [State.residenceOk, settleTick_residence]
      exact ⟨Nat.zero_le _, .nil⟩
    · exact hs
  | residenceRecordAgeOut i =>
    show (ageResidence i s).residenceOk
    unfold ageResidence
    split
    · split
      · exact residenceOk_of_sublist (s := s) (List.eraseIdx_sublist _ _) hs
      · exact hs
    · exact hs
  | tick inp =>
    rw [after_eq_of_exec (t := tickAll inp s) rfl]
    exact tickAll_residenceOk inp hs
  | stepTick inp =>
    rw [after_eq_of_exec (t := stepTick inp s) rfl, stepTick]
    split
    · exact hs
    · exact tickAll_residenceOk inp hs
  | clockLoss n inp =>
    rw [after_eq_of_exec (t := clockLoss n inp s) rfl]
    exact clockLoss_residenceOk n inp hs
  | _ => exact residenceOk_of_sameBut (after_sameBut _ s) hs (by simp [Instr.changes])

/-! ### Pending probes and delay samples -/

theorem exchangeOk_of_sameBut {F : List Field} {s t : State} (h : s.sameBut F t) (hs : s.exchangeOk)
    (hF : Field.exch ∉ F) : t.exchangeOk := by
  have hexch : t.exch = s.exch := h .exch hF
  rwa [State.exchangeOk, hexch]

theorem buildProbe_exchangeOk (t : Template) {s : State} (hs : s.exchangeOk) : (buildProbe t s).exchangeOk := by
  rw [State.exchangeOk, buildProbe, arrive_exch]
  exact hs

theorem expireSchedule_exchangeOk {s : State} (hs : s.exchangeOk) : (expireSchedule s).exchangeOk := by
  unfold expireSchedule
  split
  · exact hs
  · split
    · split
      · exact buildProbe_exchangeOk _ hs
      · exact hs
    · exact hs
  · split <;> exact hs

theorem renewTemplate_exchangeOk (t : Template) {s : State} (hs : s.exchangeOk) : (renewTemplate t s).exchangeOk := by
  unfold renewTemplate
  dsimp only
  split
  · exact buildProbe_exchangeOk t hs
  · exact hs

theorem joinProbe_ok {p : PendingProbe} {l : List PendingProbe} (hl : l.Pairwise fun a b => a.seq ≠ b.seq) :
    (joinProbe p l).length ≤ 4 ∧ (joinProbe p l).Pairwise fun a b => a.seq ≠ b.seq := by
  constructor
  · rw [joinProbe, pushNewest_length]
    exact Nat.min_le_left _ _
  · refine List.Pairwise.sublist (List.drop_sublist _ _) (List.pairwise_append.mpr ⟨?_, by simp, ?_⟩)
    · exact hl.sublist List.filter_sublist
    · intro a ha b hb
      rw [List.mem_singleton.mp hb]
      simpa using (List.mem_filter.mp ha).2

theorem probeDeparted_exchangeOk (seq : BitVec 16) (st : Stamp) {s : State} (hs : s.exchangeOk) :
    (probeDeparted seq st s).exchangeOk := by
  unfold probeDeparted
  exact iteInduction (motive := State.exchangeOk) (fun _ => hs) fun _ => ⟨joinProbe_ok hs.1.2, hs.2⟩

theorem joinWindow_ok {d : Int} {w : List Int} (hl : w.length ≤ 8) (hw : ∀ x ∈ w, 0 ≤ x) :
    (joinWindow d w).length ≤ 8 ∧ ∀ x ∈ joinWindow d w, 0 ≤ x := by
  unfold joinWindow
  split
  · exact ⟨hl, hw⟩
  · rename_i hd
    refine ⟨?_, fun x hx => ?_⟩
    · rw [pushNewest_length]
      exact Nat.min_le_left _ _
    · obtain hx | rfl := mem_of_mem_pushNewest hx
      · exact hw x hx
      · exact not_lt.mp hd

theorem newMarkDiff_exchangeOk (m : Int) (seq : BitVec 16) {s : State} (hs : s.exchangeOk) :
    (newMarkDiff m seq s).exchangeOk := by
  unfold newMarkDiff
  dsimp only
  split
  · exact hs
  · exact exchangeOk_of_sameBut (servoSample_evolves _ _).same hs (by decide)

theorem probes_filter_exchangeOk {s : State} {q : PendingProbe → Bool} {w : List Int} (hs : s.exchangeOk)
    (hw : w.length ≤ 8 ∧ ∀ x ∈ w, 0 ≤ x) :
    State.exchangeOk { s with exch := { s.exch with probes := s.exch.probes.filter q, window := w } } :=
  ⟨⟨List.filter_sublist.length_le.trans hs.1.1, hs.1.2.sublist List.filter_sublist⟩, hw⟩

theorem exchangeTake_exchangeOk (c : Copy) (h : Hdr) {s : State} (hs : s.exchangeOk) :
    (exchangeTake c h s).exchangeOk := by
  have hone : (oneStepMark c h s).exchangeOk := by
    unfold oneStepMark
    dsimp only
    split
    · exact hs
    · exact newMarkDiff_exchangeOk _ _ (renewTemplate_exchangeOk _ hs)
  have htwo : (twoStepMark c h s).exchangeOk := by
    unfold twoStepMark
    split
    · exact hs
    · exact renewTemplate_exchangeOk _ hs
  have hfollow : (followMatch c h s).exchangeOk := by
    unfold followMatch
    split
    · exact hs
    · split
      · dsimp only
        split
        · exact newMarkDiff_exchangeOk _ _ hs
        · exact hs
      · exact hs
  have hreply : (probeReply c h s).exchangeOk := by
    unfold probeReply
    split
    · exact hs
    · dsimp only
      split
      · exact probes_filter_exchangeOk hs (joinWindow_ok hs.2.1 hs.2.2)
      · exact probes_filter_exchangeOk hs hs.2
  unfold exchangeTake
  dsimp only
  split
  · exact hs
  · split
    · split
      · exact htwo
      · exact hone
    · split
      · exact hfollow
      · split
        · split
          · exact hreply
          · exact hs
        · exact hs

theorem exchangeSourceChange_exchangeOk (now : Option SourceName) (s : State) :
    (exchangeSourceChange now s).exchangeOk :=
  ⟨⟨Nat.zero_le _, .nil⟩, Nat.zero_le _, fun _ h => nomatch h⟩

theorem rerunSelection_exchangeOk (old : Option SourceName) {s : State} (hs : s.exchangeOk) :
    (rerunSelection old s).exchangeOk := by
  unfold rerunSelection
  dsimp only
  split
  · exact hs
  · exact exchangeOk_of_sameBut (servoSelection_evolves _ _).same
      (exchangeSourceChange_exchangeOk _ _) (by decide)

theorem intakeNext_exchangeOk {s : State} (hs : s.exchangeOk) : (intakeNext s).exchangeOk := by
  have hbeacon : ∀ (content : List Byte) pos h st (t : State), t.exchangeOk →
      (takeBeacon content pos h st t).exchangeOk := by
    intro content pos h st t ht
    unfold takeBeacon
    dsimp only
    split
    · exact ht
    · split
      · split
        · split
          · exact ht
          · split
            · exact rerunSelection_exchangeOk _ ht
            · exact ht
        · exact ht
      · split
        · exact ht
        · split
          · split
            · split
              · exact rerunSelection_exchangeOk _ ht
              · exact ht
            · exact ht
          · exact ht
  unfold intakeNext
  split
  · exact hs
  · dsimp only
    split
    · split
      · exact hbeacon _ _ _ _ _ hs
      · exact exchangeTake_exchangeOk _ _ hs
    · exact hs

theorem handOverThose_exchangeOk (now : Departure → Bool) {s : State} (hs : s.exchangeOk) :
    (handOverThose now s).exchangeOk := by
  refine List.foldlRecOn (motive := State.exchangeOk) _ _ (show State.exchangeOk _ from hs) fun t ht d _ => ?_
  obtain ⟨ing, mark, -, h⟩ | ⟨seq, -, h⟩ | ⟨-, h⟩ := handOver_cases d t
  · rw [h]
    exact exchangeOk_of_sameBut ((consult_evolves _ _ _ _ _ t).same.trans ((State.setPort_sameBut _ _ _).mono (by decide))) ht
      (by decide)
  · rw [h]
    exact probeDeparted_exchangeOk _ _ ht
  · rwa [h]

theorem tickEnd_exchangeOk (inp : TickIn) {s : State} (hs : s.exchangeOk) : (tickEnd inp s).exchangeOk := by
  refine exchangeOk_of_sameBut (tickOutputs_evolves _).same (handOverThose_exchangeOk _ ?_) (by decide)
  exact exchangeOk_of_sameBut ((takeIngress_sameBut .n inp.rxN s).trans (takeIngress_sameBut .d inp.rxD _)) hs (by decide)

theorem takeSteps_exchangeOk {s : State} (hs : s.exchangeOk) : (takeSteps s).exchangeOk := by
  refine List.foldlRecOn (motive := State.exchangeOk) _ _ (show State.exchangeOk _ from hs) fun t ht r _ => ?_
  unfold takeStep
  split
  · rename_i v _
    have htold : (stepTold v t).exchangeOk := by
      have : (raise .timeStepped { t with time := v, prevTime := v.total, prevTime2 := v.total }).exch = t.exch :=
        raise_exch _ _
      refine ⟨⟨Nat.zero_le _, .nil⟩, ?_⟩
      simpa only [stepTold, exchangeStep, this] using ht.2
    rw [makeStep_eq]
    refine exchangeOk_of_sameBut (reevaluateSwitch_evolves _ _).same ?_ (by decide)
    refine exchangeOk_of_sameBut (stepMarked_evolves _).same ?_ (by decide)
    exact exchangeOk_of_sameBut (stepCads_evolves _).same htold (by decide)
  · exact ht

theorem tickAll_exchangeOk (inp : TickIn) {s : State} (hs : s.exchangeOk) : (tickAll inp s).exchangeOk := by
  rw [tickAll_eq]
  exact tickEnd_exchangeOk inp (takeSteps_exchangeOk
    (exchangeOk_of_sameBut (tickStart_evolves inp s).same hs (by decide)))

theorem clockLoss_exchangeOk (n : Nat) (inp : TickIn) {s : State} (hs : s.exchangeOk) :
    (clockLoss n inp s).exchangeOk := by
  by_cases h : s.clock = .normal
  · rw [clockLoss_of_normal n inp h, lossCaughtUp]
    refine tickEnd_exchangeOk inp (exchangeOk_of_sameBut (raise_evolves _ _).same ?_ (by decide))
    refine exchangeOk_of_sameBut (servoClockLoss_evolves _).same ?_ (by decide)
    refine exchangeOk_of_sameBut (reevaluateSwitch_evolves _ _).same ?_ (by decide)
    refine exchangeOk_of_sameBut (catchUpCads_evolves _).same ?_ (by decide)
    exact exchangeOk_of_sameBut (lossAdvance_evolves n inp s).same hs (by decide)
  · rwa [clockLoss_of_backup n inp h]

theorem applyServo_exchangeOk (cfg : ServoCfg) {s : State} (hs : s.exchangeOk) : (applyServo cfg s).exchangeOk := by
  have hite : ∀ {t u : State} (c : Prop) [Decidable c], t.exchangeOk → (t.exchangeOk → u.exchangeOk) →
      (if c then t else u).exchangeOk := fun c _ ht hu => by
    split
    · exact ht
    · exact hu ht
  unfold applyServo
  dsimp only
  refine hite _ (hite _ (hite _ (?_ : State.exchangeOk (State.mk ..)) fun h => rerunSelection_exchangeOk _ h)
    fun h => expireSchedule_exchangeOk h) fun h => ?_
  · rw [State.exchangeOk]
    split <;> exact hs
  · exact exchangeOk_of_sameBut (expireHoldover_evolves _).same h (by decide)

theorem writeEntry_exchangeOk {t : TableId} {i : Nat} {b : List Byte} {s u : State} {c : Bool} (hs : s.exchangeOk)
    (h : writeEntry t i b s = .applied c u) : u.exchangeOk := by
  obtain ⟨n, e, -, rfl⟩ | ⟨-, -, -, rfl⟩ | ⟨cfg, -, rfl⟩ | rfl | ⟨k, n, r, -, -, rfl⟩ | ⟨k, n, r, -, rfl⟩ |
    ⟨k, m, r, -, rfl⟩ | ⟨n, r, -, rfl⟩ | ⟨g, r, -, rfl⟩ | ⟨n, rfl⟩ := writeEntry_applied h
  · exact hs
  · exact exchangeOk_of_sameBut (s.setPort_sameBut _ _) hs (by decide)
  · exact applyServo_exchangeOk cfg hs
  · exact hs
  · exact exchangeOk_of_sameBut (storeCad_evolves k n r s).same hs (by decide)
  · exact hs
  · exact exchangeOk_of_sameBut (storeLabel_evolves k m r s).same hs (by decide)
  · exact hs
  · exact hs
  · exact hs

theorem after_exchangeOk (c : Instr) {s : State} (hs : s.exchangeOk) : (c.after s).exchangeOk := by
  cases c with
  | coldReset => exact ⟨⟨Nat.zero_le _, .nil⟩, Nat.zero_le _, fun _ h => nomatch h⟩
  | warmReset =>
    show (warmResetWhenDue s).exchangeOk
    unfold warmResetWhenDue
    split
    · rw [State.exchangeOk, settleTick_exch]
      exact ⟨⟨Nat.zero_le _, .nil⟩, Nat.zero_le _, fun _ h => nomatch h⟩
    · exact hs
  | timingCopyIntake => exact intakeNext_exchangeOk hs
  | sourceTimeout i =>
    show (sourceTimeout i s).exchangeOk
    unfold sourceTimeout
    dsimp only
    split
    · split
      · split
        · exact rerunSelection_exchangeOk _ hs
        · exact hs
      · exact hs
    · exact hs
  | probeScheduleExpiry => exact expireSchedule_exchangeOk hs
  | pendingProbeAgeOut i =>
    show (agePendingProbe i s).exchangeOk
    unfold agePendingProbe
    split
    · split
      · exact ⟨⟨(List.eraseIdx_sublist _ _).length_le.trans hs.1.1, hs.1.2.sublist (List.eraseIdx_sublist _ _)⟩, hs.2⟩
      · exact hs
    · exact hs
  | tick inp =>
    rw [after_eq_of_exec (t := tickAll inp s) rfl]
    exact tickAll_exchangeOk inp hs
  | stepTick inp =>
    rw [after_eq_of_exec (t := stepTick inp s) rfl, stepTick]
    split
    · exact hs
    · exact tickAll_exchangeOk inp hs
  | clockLoss n inp =>
    rw [after_eq_of_exec (t := clockLoss n inp s) rfl]
    exact clockLoss_exchangeOk n inp hs
  | writeTable =>
    exact serve_keeps (P := State.exchangeOk) (fun _ _ _ _ h => h)
      (fun _ _ h hs => exchangeOk_of_sameBut h.same hs (by decide))
      (fun b _ ht => writeTableCore_keeps writeEntry_exchangeOk b ht) hs
  | _ => exact exchangeOk_of_sameBut (after_sameBut _ s) hs (by simp [Instr.changes])

/-- Settles O6: each capacity by what joins the table, the counts and the history by the moves of the servo. -/
theorem tableCapacitiesHold : Obligations.TableCapacitiesHold := by
  intro s t ⟨hreq, hres, hexch, hcounts⟩ h
  exact ⟨step_keeps (P := State.requestsOk) (fun _ _ h => h) (fun c _ h => after_requestsOk c h) hreq h,
    step_keeps (P := State.residenceOk) (fun _ _ h => h) (fun c _ h => after_residenceOk c h) hres h,
    step_keeps (P := State.exchangeOk) (fun _ _ h => h) (fun c _ h => after_exchangeOk c h) hexch h,
    countBound_closed.step hcounts h⟩

end Sys2Proof.Machine
end

section
/-!
PROOFS. The ports: their records, the capacities of their queues, the empty DOWN port, and the departures that agree with
the frames in transmission (R1, R5, R7, R10, R11, R15, R48).
-/

namespace Sys2Proof.Machine

/-! ### One port -/

theorem State.setPort_get (s : State) (p : Port) (x : PortState) (q : Port) :
    (s.setPort p x).port q = if q = p then x else s.port q := by
  cases p <;> cases q <;> rfl

/-- A port by itself: its record, its queues, and nothing in it while it is DOWN. -/
abbrev PortState.ok (x : PortState) : Prop := x.recordOk ∧ x.queuesOk ∧ x.downOk

theorem PortState.joinedBy_ok {x y : PortState} (h : x.joinedBy y) (hx : x.ok) : y.ok := by
  obtain ⟨tq, oq, rfl, hd, ht, ho⟩ := h
  obtain ⟨hrec, ⟨htq, hoq⟩, hdown⟩ := hx
  refine ⟨hrec, ⟨ht htq, ho hoq⟩, fun hl => ?_⟩
  obtain ⟨rfl, rfl⟩ := hd hl
  simpa using hdown hl

/-! ### Both ports and the departures -/

/-- `State.portsOk` with the list of departures that wait for their stamps named, so that it can be followed while a
tick hands them over one by one. -/
structure State.portsOkWith (l : List Departure) (s : State) : Prop where
  port : ∀ p, (s.port p).ok
  asym : s.portD.asym = 0
  sending : ∀ d ∈ l, d.sendingOk s
  answer : ∀ p, ∀ f ∈ (s.port p).tx, f.wire = none →
    ∃ d ∈ l, d.port = p ∧ d.sending = true ∧ d.entry.isMarked = true

theorem portsOk_iff (s : State) : s.portsOk ↔ s.portsOkWith s.departing := by
  constructor
  · rintro ⟨hn, hd, hasym, hsend, han, had⟩
    exact ⟨fun p => by cases p <;> assumption, hasym, hsend, fun p => by cases p <;> assumption⟩
  · rintro ⟨hport, hasym, hsend, hans⟩
    exact ⟨hport .n, hport .d, hasym, hsend, hans .n, hans .d⟩

theorem State.portsOkWith.congr {l l' : List Departure} {s : State} (h : s.portsOkWith l) (hl : ∀ d, d ∈ l' ↔ d ∈ l) :
    s.portsOkWith l' := by
  refine ⟨h.port, h.asym, fun d hd => h.sending d ((hl d).mp hd), fun p f hf hw => ?_⟩
  obtain ⟨d, hd, hrest⟩ := h.answer p f hf hw
  exact ⟨d, (hl d).mpr hd, hrest⟩

/-- Frames that join queues keep it. -/
theorem State.portsOkWith.of_joined {l : List Departure} {s t : State} (hs : s.portsOkWith l)
    (hn : s.portN.joinedBy t.portN) (hd : s.portD.joinedBy t.portD) : t.portsOkWith l := by
  have hport : ∀ p, (s.port p).joinedBy (t.port p) := fun p => by cases p <;> assumption
  have hlink : ∀ p, (t.port p).link = (s.port p).link := fun p => by
    obtain ⟨_, _, h, -⟩ := hport p
    rw [h]
  have htx : ∀ p, (t.port p).tx = (s.port p).tx := fun p => by
    obtain ⟨_, _, h, -⟩ := hport p
    rw [h]
  refine ⟨fun p => PortState.joinedBy_ok (hport p) (hs.port p), ?_, fun d hd => ?_, fun p => ?_⟩
  · obtain ⟨_, _, h, -⟩ := hd
    rw [h]
    exact hs.asym
  · rw [Departure.sendingOk, hlink, htx]
    exact hs.sending d hd
  · rw [htx]
    exact hs.answer p

theorem portsOk_of_evolves {F : List Field} {s t : State} (h : s.evolves F t) (hs : s.portsOk)
    (hF : Field.departing ∉ F) : t.portsOk := by
  have hdep : t.departing = s.departing := h.same .departing hF
  rw [portsOk_iff, hdep]
  exact ((portsOk_iff s).mp hs).of_joined h.portN h.portD

/-- A port replaced with one of the same link state and transmission. -/
theorem State.portsOkWith.setPort {l : List Departure} {s : State} {p : Port} {x : PortState} (hs : s.portsOkWith l)
    (hx : x.ok) (hasym : p = .d → x.asym = 0) (hlink : x.link = (s.port p).link) (htx : x.tx = (s.port p).tx) :
    (s.setPort p x).portsOkWith l := by
  have hlinks : ∀ q, ((s.setPort p x).port q).link = (s.port q).link := fun q => by
    rw [State.setPort_get]
    split
    · rename_i h
      rw [h, hlink]
    · rfl
  have htxs : ∀ q, ((s.setPort p x).port q).tx = (s.port q).tx := fun q => by
    rw [State.setPort_get]
    split
    · rename_i h
      rw [h, htx]
    · rfl
  refine ⟨fun q => ?_, ?_, fun d hd => ?_, fun q => ?_⟩
  · rw [State.setPort_get]
    split
    · exact hx
    · exact hs.port q
  · cases p
    · exact hs.asym
    · exact hasym rfl
  · rw [Departure.sendingOk, hlinks, htxs]
    exact hs.sending d hd
  · rw [htxs]
    exact hs.answer q

theorem State.portsOkWith.asym_eq {l : List Departure} {s : State} (hs : s.portsOkWith l) (p : Port) (h : p = .d) :
    (s.port p).asym = 0 := by
  rw [h]
  exact hs.asym

/-! ### Links and transmissions -/

theorem linkUp_portsOk (p : Port) {s : State} (hs : s.portsOk) : (linkUp p s).portsOk := by
  unfold linkUp
  split
  · exact hs
  · rename_i hl
    have hdown : (s.port p).link = .down := by
      cases h : (s.port p).link
      · rfl
      · exact absurd h hl
    rw [portsOk_iff] at hs ⊢
    obtain ⟨hrec, -, -⟩ := hs.port p
    refine ⟨fun q => ?_, ?_, fun d hd => ?_, fun q f hf hw => ?_⟩
    · rw [State.setPort_get]
      split
      · exact ⟨hrec, ⟨Nat.zero_le _, Nat.zero_le _⟩, fun h => nomatch h⟩
      · exact hs.port q
    · cases p
      · exact hs.asym
      · exact hs.asym
    · rw [State.setPort_departing] at hd
      obtain ⟨hlat, hsend⟩ := hs.sending d hd
      refine ⟨hlat, fun h => ?_⟩
      obtain ⟨hup, htx⟩ := hsend h
      have hne : d.port ≠ p := fun h => by
        rw [h, hdown] at hup
        cases hup
      rw [State.setPort_get, if_neg hne]
      exact ⟨hup, htx⟩
    · rw [State.setPort_get] at hf
      rw [State.setPort_departing]
      split at hf
      · cases hf
      · exact hs.answer q f hf hw

/-- The end of a port's transmission, and whatever becomes of that port's queues. -/
theorem endSending_portsOk {p : Port} {x : PortState} {s : State} (hs : s.portsOk) (hx : x.ok)
    (hasym : p = .d → x.asym = 0) (htx : x.tx = none) : ((s.endSending p).setPort p x).portsOk := by
  rw [portsOk_iff] at hs ⊢
  have hdep : ((s.endSending p).setPort p x).departing = s.departing.map (Departure.endSending p) := by simp [State.endSending]
  have hget : ∀ q, ((s.endSending p).setPort p x).port q = if q = p then x else s.port q := fun q => by
    cases p <;> cases q <;> rfl
  rw [hdep]
  refine ⟨fun q => ?_, ?_, fun d hd => ?_, fun q f hf hw => ?_⟩
  · rw [hget]
    split
    · exact hx
    · exact hs.port q
  · cases p
    · exact hs.asym
    · exact hasym rfl
  · obtain ⟨d', hd', rfl⟩ := List.mem_map.mp hd
    obtain ⟨hlat, hsend⟩ := hs.sending d' hd'
    refine ⟨hlat, fun h => ?_⟩
    obtain ⟨h, hne⟩ : d'.sending = true ∧ d'.port ≠ p := by simpa [Departure.endSending] using h
    rw [hget, show (d'.endSending p).port = d'.port from rfl, if_neg hne]
    exact hsend h
  · rw [hget] at hf
    split at hf
    · rw [htx] at hf
      cases hf
    · rename_i hne
      obtain ⟨d, hd, rfl, hsend, hmark⟩ := hs.answer q f hf hw
      exact ⟨d.endSending p, List.mem_map_of_mem hd, rfl, by simp [Departure.endSending, hsend, hne], hmark⟩

theorem makeResetDue_portsOk (c : Bool) {s : State} (hs : s.portsOk) : (makeResetDue c s).portsOk := by
  cases c <;> exact hs

theorem linkDown_portsOk (p : Port) {s : State} (hs : s.portsOk) : (linkDown p s).portsOk := by
  unfold linkDown
  dsimp only
  split
  · exact hs
  · have h := (portsOk_iff s).mp hs
    obtain ⟨hrec, -, -⟩ := h.port p
    exact makeResetDue_portsOk _ (endSending_portsOk hs
      ⟨hrec, ⟨Nat.zero_le _, Nat.zero_le _⟩, fun _ => ⟨rfl, rfl, rfl, rfl⟩⟩ (h.asym_eq p) rfl)

theorem transmitEnd_portsOk (p : Port) {s : State} (hs : s.portsOk) : (transmitEnd p s).portsOk := by
  unfold transmitEnd
  split
  · split
    · exact hs
    · have h := (portsOk_iff s).mp hs
      obtain ⟨hrec, hq, hd⟩ := h.port p
      have hend : s.endSending p = (s.endSending p).setPort p { s.port p with tx := none } := by cases p <;> rfl
      rw [hend]
      refine endSending_portsOk hs ⟨hrec, hq, fun hl => ?_⟩ (h.asym_eq p) rfl
      obtain ⟨ht, ho, -, hr⟩ := hd hl
      exact ⟨ht, ho, rfl, hr⟩
  · exact hs

theorem frameReceived_portsOk (p : Port) (bytes : List Byte) (cut : Bool) {s : State} (hs : s.portsOk) :
    (frameReceived p bytes cut s).portsOk := by
  have h := (portsOk_iff s).mp hs
  obtain ⟨hrec, hq, hd⟩ := h.port p
  have hset : ∀ x : PortState, x.ok → x.asym = (s.port p).asym → x.link = (s.port p).link → x.tx = (s.port p).tx →
      (s.setPort p x).portsOk := fun x hx hasym hl ht => by
    rw [portsOk_iff, State.setPort_departing]
    exact h.setPort hx (fun hp => hasym.trans (h.asym_eq p hp)) hl ht
  have hup : (s.port p).link = .up → ∀ {P : Prop}, (s.port p).link = .down → P := fun h _ k =>
    absurd (h.symm.trans k) (by decide)
  unfold frameReceived
  dsimp only
  split
  · rename_i hl _
    split
    · exact hset _ ⟨hrec, hq, hup hl⟩ rfl rfl rfl
    · exact hset _ ⟨hrec, hq, hup hl⟩ rfl rfl rfl
  · rename_i hl _
    split
    · exact hset _ ⟨hrec, hq, hup hl⟩ rfl rfl rfl
    · exact hs
  · exact hs

theorem classifyNext_portsOk (p : Port) {s : State} (hs : s.portsOk) : (classifyNext p s).portsOk := by
  unfold classifyNext
  split
  · exact hs
  · have h := (portsOk_iff s).mp hs
    refine portsOk_of_evolves (applyDisposition_evolves _ _ _ _) ?_ (by decide)
    rw [portsOk_iff, State.setPort_departing]
    exact h.setPort (h.port p) (h.asym_eq p) rfl rfl

/-- A departure of an UP port with a free transmitter. -/
theorem depart_portsOk (p : Port) (e : EgressEntry) {s : State} (hs : s.portsOk) (hl : (s.port p).link = .up)
    (hfree : (s.port p).tx = none) : (depart p e s).portsOk := by
  have h := (portsOk_iff s).mp hs
  obtain ⟨hrec, hq, -⟩ := h.port p
  have hne : ∀ d ∈ s.departing, d.sending = true → d.port ≠ p := fun d hd hsend hp => by
    obtain ⟨-, htx⟩ := (h.sending d hd).2 hsend
    exact htx (hp ▸ hfree)
  unfold depart
  dsimp only
  refine makeResetDue_portsOk _ ?_
  have hwith : ∀ l : List Departure, (∀ d ∈ s.departing, d ∈ l) →
      (∀ d ∈ l, d ∈ s.departing ∨ d.port = p ∧ d.latency = (s.port p).egressLat) →
      (e.isMarked = true → ∃ d ∈ l, d.port = p ∧ d.sending = true ∧ d.entry.isMarked = true) →
      (s.setPort p
        { s.port p with
          tx := some { wire := if e.isMarked then none else some (sentBytes e.bytes), origin := e.origin } }).portsOkWith l := by
    intro l hsub hmem hmark
    refine ⟨fun q => ?_, ?_, fun d hd => ?_, fun q f hf hw => ?_⟩
    · rw [State.setPort_get]
      split
      · exact ⟨hrec, hq, fun k => nomatch hl.symm.trans k⟩
      · exact h.port q
    · cases p
      · exact h.asym
      · exact h.asym
    · rw [Departure.sendingOk, State.setPort_get]
      obtain hd | ⟨hp, hlat⟩ := hmem d hd
      · obtain ⟨hlat, hsend⟩ := h.sending d hd
        refine ⟨hlat, fun hs => ?_⟩
        rw [if_neg (hne d hd hs)]
        exact hsend hs
      · rw [if_pos hp]
        exact ⟨hlat.trans_le hrec.2.1, fun _ => ⟨hl, fun k => nomatch k⟩⟩
    · rw [State.setPort_get] at hf
      split at hf
      · rename_i hqp
        obtain rfl := Option.mem_some.mp hf
        rw [hqp]
        refine hmark ?_
        by_contra hm
        simp [hm] at hw
      · obtain ⟨d, hd, hrest⟩ := h.answer q f hf hw
        exact ⟨d, hsub d hd, hrest⟩
  split
  · rw [portsOk_iff]
    have hnew := hwith _ (fun d hd => List.mem_append_left _ hd) (fun d hd => ?_) fun hm =>
      ⟨{ port := p, entry := e, latency := (s.port p).egressLat, sending := true },
        List.mem_append_right _ (List.mem_singleton_self _), rfl, rfl, hm⟩
    · exact ⟨hnew.port, hnew.asym, hnew.sending, hnew.answer⟩
    · obtain hd | hd := List.mem_append.mp hd
      · exact .inl hd
      · obtain rfl := List.mem_singleton.mp hd
        exact .inr ⟨rfl, rfl⟩
  · rename_i htake
    rw [portsOk_iff, State.setPort_departing]
    refine hwith _ (fun _ hd => hd) (fun _ hd => .inl hd) fun hm => absurd ?_ htake
    unfold EgressEntry.isMarked at hm
    unfold EgressEntry.takesStamp
    split at hm
    · rename_i ho
      rw [ho]
    · cases hm

theorem transmitStart_portsOk (p : Port) {s : State} (hs : s.portsOk) : (transmitStart p s).portsOk := by
  have h := (portsOk_iff s).mp hs
  obtain ⟨hrec, ⟨htq, hoq⟩, -⟩ := h.port p
  unfold transmitStart
  dsimp only
  split
  · rename_i hup
    have hset : ∀ x : PortState, x.ok → x.asym = (s.port p).asym → x.link = (s.port p).link →
        x.tx = (s.port p).tx → (s.setPort p x).portsOk := fun x hx hasym hl ht => by
      rw [portsOk_iff, State.setPort_departing]
      exact h.setPort hx (fun hp => hasym.trans (h.asym_eq p hp)) hl ht
    split
    · rename_i e rest hq
      rw [hq] at htq
      refine depart_portsOk p e (hset _ ⟨hrec, ⟨Nat.le_of_succ_le htq, hoq⟩, fun k => nomatch hup.1.symm.trans k⟩ rfl rfl rfl)
        ?_ ?_
      · rw [State.setPort_port]
        exact hup.1
      · rw [State.setPort_port]
        exact hup.2
    · rename_i e rest _ hq
      rw [hq] at hoq
      refine depart_portsOk p e (hset _ ⟨hrec, ⟨htq, Nat.le_of_succ_le hoq⟩, fun k => nomatch hup.1.symm.trans k⟩ rfl rfl rfl)
        ?_ ?_
      · rw [State.setPort_port]
        exact hup.1
      · rw [State.setPort_port]
        exact hup.2
    · exact hs
  · exact hs

/-! ### The stamps of a tick -/

theorem PortState.answered_ok {x : PortState} (hx : x.ok) (c : Bool) (b : List Byte) : (x.answered c b).ok := by
  obtain ⟨hrec, hq, hd⟩ := hx
  cases c
  · exact ⟨hrec, hq, hd⟩
  · refine ⟨hrec, hq, fun hl => ?_⟩
    obtain ⟨ht, ho, htx, hr⟩ := hd hl
    refine ⟨ht, ho, ?_, hr⟩
    show Option.map _ x.tx = none
    rw [htx]
    rfl

/-- A departure handed over needs its answer no longer: a frame of it still in transmission has its bytes. -/
theorem handOver_portsOkWith {d : Departure} {l : List Departure} {s : State} (hs : s.portsOkWith (d :: l)) :
    (handOver d s).portsOkWith l := by
  have htail : (d.sending = true → d.entry.isMarked = true → False) → s.portsOkWith l := fun hno => by
    refine ⟨hs.port, hs.asym, fun x hx => hs.sending x (List.mem_cons_of_mem _ hx), fun p f hf hw => ?_⟩
    obtain ⟨x, hx, hp, hsend, hmark⟩ := hs.answer p f hf hw
    obtain rfl | hx := List.mem_cons.mp hx
    · exact (hno hsend hmark).elim
    · exact ⟨x, hx, hp, hsend, hmark⟩
  obtain ⟨ing, mark, -, h⟩ | ⟨seq, ho, h⟩ | ⟨ht, h⟩ := handOver_cases d s
  · dsimp only at h
    rw [h]
    have hev := consult_evolves d.port d.entry.bytes ing (egressStamp s d.latency) mark s
    generalize consult d.port d.entry.bytes ing (egressStamp s d.latency) mark s = r at hev ⊢
    have hr : r.2.portsOkWith (d :: l) := hs.of_joined hev.portN hev.portD
    have hlink : ∀ q, ((r.2.setPort d.port ((r.2.port d.port).answered d.sending r.1)).port q).link = (r.2.port q).link := by
      intro q
      rw [State.setPort_get]
      split
      · rename_i hq
        rw [hq]
        cases d.sending <;> rfl
      · rfl
    have htx : ∀ q, ((r.2.setPort d.port ((r.2.port d.port).answered d.sending r.1)).port q).tx ≠ none ↔
        (r.2.port q).tx ≠ none := by
      intro q
      rw [State.setPort_get]
      split
      · rename_i hq
        rw [hq]
        cases d.sending
        · rfl
        · show Option.map _ _ ≠ none ↔ _
          simp
      · rfl
    refine ⟨fun q => ?_, ?_, fun x hx => ?_, fun q f hf hw => ?_⟩
    · rw [State.setPort_get]
      split
      · exact PortState.answered_ok (hr.port _) _ _
      · exact hr.port q
    · cases hp : d.port
      · exact hr.asym
      · show (r.2.portD.answered d.sending r.1).asym = 0
        cases d.sending <;> exact hr.asym
    · obtain ⟨hlat, hsend⟩ := hr.sending x (List.mem_cons_of_mem _ hx)
      rw [Departure.sendingOk, hlink, htx]
      exact ⟨hlat, hsend⟩
    · rw [State.setPort_get] at hf
      have hother : ∀ f ∈ (r.2.port q).tx, f.wire = none → ¬ (d.port = q ∧ d.sending = true) →
          ∃ x ∈ l, x.port = q ∧ x.sending = true ∧ x.entry.isMarked = true := fun f hf hw hno => by
        obtain ⟨x, hx, hp, hsend, hmark⟩ := hr.answer q f hf hw
        obtain rfl | hx := List.mem_cons.mp hx
        · exact absurd ⟨hp, hsend⟩ hno
        · exact ⟨x, hx, hp, hsend, hmark⟩
      split at hf
      · rename_i hq
        subst hq
        cases hsend : d.sending
        · rw [hsend] at hf
          exact hother f hf hw fun h => nomatch hsend.symm.trans h.2
        · rw [hsend] at hf
          obtain ⟨g, -, rfl⟩ := Option.map_eq_some_iff.mp (Option.mem_def.mp hf)
          cases hw
      · rename_i hq
        exact hother f hf hw fun h => hq h.1.symm
  · rw [h]
    have hev := probeDeparted_evolves seq (egressStamp s d.latency) s
    refine State.portsOkWith.of_joined (htail fun _ hm => ?_) hev.portN hev.portD
    simp [EgressEntry.isMarked, ho] at hm
  · rw [h]
    refine htail fun _ hm => ?_
    unfold EgressEntry.isMarked at hm
    unfold EgressEntry.takesStamp at ht
    split at hm
    · rename_i ho
      rw [ho] at ht
      cases ht
    · cases hm

theorem foldl_handOver_portsOkWith (ds l : List Departure) {s : State} (hs : s.portsOkWith (ds ++ l)) :
    (ds.foldl (fun t d => handOver d t) s).portsOkWith l := by
  induction ds generalizing s with
  | nil => exact hs
  | cons d ds ih => exact ih (handOver_portsOkWith hs)

theorem handOverThose_portsOk (now : Departure → Bool) {s : State} (hs : s.portsOk) : (handOverThose now s).portsOk := by
  have hdep : (handOverThose now s).departing = s.departing.filter fun d => !now d :=
    (State.sameBut.foldl (fun t d => handOver_sameBut d t) (s.departing.filter now)
      { s with departing := s.departing.filter fun d => !now d }) .departing (by decide)
  rw [portsOk_iff, hdep]
  refine foldl_handOver_portsOkWith _ _ ?_
  have hsplit : s.portsOkWith (s.departing.filter now ++ s.departing.filter fun d => !now d) :=
    ((portsOk_iff s).mp hs).congr fun d => by
      cases h : now d <;> simp [List.mem_append, List.mem_filter, h]
  exact ⟨hsplit.port, hsplit.asym, hsplit.sending, hsplit.answer⟩

theorem takeIngress_portsOk (p : Port) (start : Bool) {s : State} (hs : s.portsOk) : (takeIngress p start s).portsOk := by
  have h := (portsOk_iff s).mp hs
  obtain ⟨hrec, hq, hd⟩ := h.port p
  rw [portsOk_iff]
  have hdep : (takeIngress p start s).departing = s.departing := (takeIngress_sameBut p start s) .departing (by decide)
  rw [hdep]
  refine h.setPort ⟨hrec, hq, fun hl => ?_⟩ (h.asym_eq p) rfl rfl
  obtain ⟨ht, ho, htx, hr⟩ := hd hl
  refine ⟨ht, ho, htx, ?_⟩
  dsimp only
  rw [if_neg fun hc => nomatch hc.2.symm.trans hl]
  exact hr

theorem tickEnd_portsOk (inp : TickIn) {s : State} (hs : s.portsOk) : (tickEnd inp s).portsOk :=
  portsOk_of_evolves (tickOutputs_evolves _)
    (handOverThose_portsOk _ (takeIngress_portsOk .d inp.rxD (takeIngress_portsOk .n inp.rxN hs))) (by decide)

theorem tickAll_portsOk (inp : TickIn) {s : State} (hs : s.portsOk) : (tickAll inp s).portsOk := by
  rw [tickAll_eq]
  exact tickEnd_portsOk inp (portsOk_of_evolves (takeSteps_evolves _)
    (portsOk_of_evolves (tickStart_evolves inp s) hs (by decide)) (by decide))

theorem clockLoss_portsOk (n : Nat) (inp : TickIn) {s : State} (hs : s.portsOk) : (clockLoss n inp s).portsOk := by
  by_cases h : s.clock = .normal
  · rw [clockLoss_of_normal n inp h, lossCaughtUp]
    refine tickEnd_portsOk inp (portsOk_of_evolves (raise_evolves _ _) ?_ (by decide))
    refine portsOk_of_evolves (servoClockLoss_evolves _) ?_ (by decide)
    refine portsOk_of_evolves (reevaluateSwitch_evolves _ _) ?_ (by decide)
    refine portsOk_of_evolves (catchUpCads_evolves _) ?_ (by decide)
    exact portsOk_of_evolves (lossAdvance_evolves n inp s) hs (by decide)
  · rwa [clockLoss_of_backup n inp h]

/-! ### The table of ports and the resets -/

theorem signedOf_range (w n : Nat) (hw : 1 ≤ w) (hn : n < 2 ^ w) : -2 ^ (w - 1) ≤ signedOf w n ∧ signedOf w n < 2 ^ (w - 1) := by
  obtain ⟨k, rfl⟩ : ∃ k, w = k + 1 := ⟨w - 1, by omega⟩
  have hpow : (2 : Int) ^ (k + 1) = 2 * 2 ^ k := by ring
  have hcast : ((2 ^ k : Nat) : Int) = 2 ^ k := by push_cast; rfl
  have hn' : n < 2 * 2 ^ k := by rwa [pow_succ, Nat.mul_comm] at hn
  simp only [signedOf, Nat.add_sub_cancel]
  split <;> omega

theorem fieldAt_lt (b : List Byte) (off len : Nat) : fieldAt b off len < 256 ^ len :=
  (beNat_lt _).trans_le (Nat.pow_le_pow_right (by decide) (by simp [slice]))

theorem writeEntry_portsOk {t : TableId} {i : Nat} {b : List Byte} {s u : State} {c : Bool} (hs : s.portsOk)
    (h : writeEntry t i b s = .applied c u) : u.portsOk := by
  obtain ⟨n, e, -, rfl⟩ | ⟨hin, hout, hasym, rfl⟩ | ⟨cfg, -, rfl⟩ | rfl | ⟨k, n, r, -, -, rfl⟩ | ⟨k, n, r, -, rfl⟩ |
    ⟨k, m, r, -, rfl⟩ | ⟨n, r, -, rfl⟩ | ⟨g, r, -, rfl⟩ | ⟨n, rfl⟩ := writeEntry_applied h
  · exact hs
  · have h := (portsOk_iff s).mp hs
    obtain ⟨-, hq, hd⟩ := h.port (portOf i)
    obtain ⟨hlo, hhi⟩ := signedOf_range 32 (fieldAt b 8 4) (by decide) (fieldAt_lt b 8 4)
    rw [portsOk_iff, State.setPort_departing]
    refine h.setPort ⟨⟨hin, hout, ?_, ?_⟩, hq, hd⟩ hasym rfl rfl
    · simpa using hlo
    · exact Int.le_of_lt_add_one (by simpa using hhi)
  · exact portsOk_of_evolves (applyServo_evolves cfg s) hs (by decide)
  · exact hs
  · exact portsOk_of_evolves (storeCad_evolves k n r s) hs (by decide)
  · exact hs
  · exact portsOk_of_evolves (storeLabel_evolves k m r s) hs (by decide)
  · exact hs
  · exact hs
  · exact hs

theorem portReset_ok : PortState.reset.ok :=
  ⟨by decide, ⟨Nat.zero_le _, Nat.zero_le _⟩, fun _ => ⟨rfl, rfl, rfl, rfl⟩⟩

theorem coldReset_portsOk (s : State) : (coldReset s).portsOk := by
  refine ⟨portReset_ok, portReset_ok, rfl, fun d hd => ?_, fun f hf => ?_, fun f hf => ?_⟩
  · cases (show d ∈ ([] : List Departure) from hd)
  · cases (show f ∈ (none : Option TxFrame) from hf)
  · cases (show f ∈ (none : Option TxFrame) from hf)

theorem warmReset_portsOk {s : State} (hs : s.portsOk) : (warmReset s).portsOk := by
  obtain ⟨⟨hrn, -, hdn⟩, ⟨hrd, -, hdd⟩, hasym, hsend, han, had⟩ := hs
  refine ⟨⟨hrn, ⟨Nat.zero_le _, Nat.zero_le _⟩, fun hl => ?_⟩, ⟨hrd, ⟨Nat.zero_le _, Nat.zero_le _⟩, fun hl => ?_⟩, hasym,
    fun d hd => ?_, han, had⟩
  · obtain ⟨-, -, h⟩ := hdn hl
    exact ⟨rfl, rfl, h⟩
  · obtain ⟨-, -, h⟩ := hdd hl
    exact ⟨rfl, rfl, h⟩
  · have h := hsend d hd
    unfold Departure.sendingOk at h ⊢
    cases hp : d.port <;> rw [hp] at h <;> exact h

theorem after_portsOk (c : Instr) {s : State} (hs : s.portsOk) : (c.after s).portsOk := by
  cases c with
  | coldReset => exact coldReset_portsOk s
  | warmReset =>
    show (warmResetWhenDue s).portsOk
    unfold warmResetWhenDue
    split
    · exact portsOk_of_evolves (settleTick_evolves _) (warmReset_portsOk (handOverThose_portsOk _ hs)) (by decide)
    · exact hs
  | linkUp p => exact linkUp_portsOk p hs
  | linkDown p => exact linkDown_portsOk p hs
  | frameReceived p bytes cut => exact frameReceived_portsOk p bytes cut hs
  | classifyFrame p => exact classifyNext_portsOk p hs
  | transmitStart p => exact transmitStart_portsOk p hs
  | transmitEnd p => exact transmitEnd_portsOk p hs
  | stepTick inp =>
    rw [after_eq_of_exec (t := stepTick inp s) rfl, stepTick]
    split
    · exact hs
    · exact tickAll_portsOk inp hs
  | clockLoss n inp =>
    rw [after_eq_of_exec (t := clockLoss n inp s) rfl]
    exact clockLoss_portsOk n inp hs
  | tick inp =>
    rw [after_eq_of_exec (t := tickAll inp s) rfl]
    exact tickAll_portsOk inp hs
  | writeTable =>
    exact serve_keeps (P := State.portsOk) (fun _ _ _ _ h => h) (fun _ _ h hs => portsOk_of_evolves h hs (by decide))
      (fun b _ ht => writeTableCore_keeps writeEntry_portsOk b ht) hs
  | _ => exact portsOk_of_evolves (after_evolves rfl s) hs (by simp [Instr.changes])

/-- Settles O5: most commands only let frames join queues; those of the frame path and the ticks are followed with the
departures that wait. -/
theorem portsStayLegal : Obligations.PortsStayLegal := fun _ _ hs h =>
  step_keeps (P := State.portsOk) (fun _ _ h => h) (fun c _ h => after_portsOk c h) hs h

end Sys2Proof.Machine
end

section
/-!
PROOFS. The cadences: what every operation leaves of the runtime of each one (R124 to R141), and the records that go with
them (R120, R121).
-/

namespace Sys2Proof.Machine

/-! ### The cadence records -/

theorem vector_set_get {α : Type} {l : Nat} (v : Vector α l) (i j : Fin l) (x : α) :
    (v.set i x)[j] = if j = i then x else v[j] := by
  rw [Fin.getElem_fin, Vector.getElem_set]
  simp only [Fin.ext_iff, eq_comm, Fin.getElem_fin]

theorem State.setCadRec_get (s : State) (k : Fin 4) (n : Fin 8) (r : CadRec) (j : Fin 4) (m : Fin 8) :
    (s.setCadRec k n r).banks[j].cad[m] = if j = k ∧ m = n then r else s.banks[j].cad[m] := by
  have hbank : (s.setCadRec k n r).banks[j] = if j = k then { s.banks[k] with cad := s.banks[k].cad.set n r } else s.banks[j] :=
    vector_set_get _ _ _ _
  rw [hbank]
  by_cases hj : j = k
  · rw [if_pos hj, hj]
    simp only [true_and]
    exact vector_set_get _ _ _ _
  · rw [if_neg hj, if_neg fun h => hj h.1]

theorem storeCad_banks (k : Fin 4) (n : Fin 8) (r : CadRec) (s : State) :
    (storeCad k n r s).banks = (s.setCadRec k n r).banks := by
  unfold storeCad
  dsimp only
  split
  · rw [endEvent_banks]
    rfl
  · rfl

/-- What accepting a cadence record says of it (R120, R121): floor(P) is at least 100 ns, so the width has room. -/
theorem decodeCad_legal {b : List Byte} {r : CadRec} (h : decodeCad b = some r) : r.legal := by
  unfold decodeCad at h
  dsimp only at h
  split at h
  · split at h
    · cases h
    · rename_i hc
      obtain rfl := Option.some.inj h
      simp only [not_or, not_lt] at hc
      obtain ⟨hnum, hden, hnum', hden', hrate⟩ := hc
      have hphase := fieldAt_lt b 11 4
      have hwidth := fieldAt_lt b 15 4
      have hP : 100 ≤ fieldAt b 7 4 * 10 ^ 9 / fieldAt b 3 4 :=
        (Nat.le_div_iff_mul_le (Nat.pos_of_ne_zero hnum)).mpr (by omega)
      refine ⟨⟨Nat.pos_of_ne_zero hnum, hnum'⟩, ⟨Nat.pos_of_ne_zero hden, hden'⟩, hrate, by simpa using Nat.le_of_lt_succ hphase,
        ?_⟩
      simp only [CadRec.floorP, CadRec.span, fitWidth]
      omega
  · cases h

theorem recordsOk_of_sameBut {F : List Field} {s t : State} (h : s.sameBut F t) (hs : s.recordsOk)
    (hF : Field.banks ∉ F) : t.recordsOk := by
  have hbanks : t.banks = s.banks := h .banks hF
  rw [State.recordsOk, hbanks]
  exact hs

theorem storeCad_recordsOk {k : Fin 4} {n : Fin 8} {r : CadRec} {s : State} (hr : r.legal) (hs : s.recordsOk) :
    (storeCad k n r s).recordsOk := fun j m => by
  rw [storeCad_banks, State.setCadRec_get]
  split
  · exact hr
  · exact hs j m

theorem setRoute_cad (s : State) (k : Fin 4) (i : Fin 12) (r : Route) (j : Fin 4) :
    (s.setRoute k i r).banks[j].cad = s.banks[j].cad := by
  simp only [State.setRoute, Fin.getElem_fin, Vector.getElem_set]
  split
  · rename_i h
    simp only [h]
  · rfl

theorem storeLabel_cad (k : Fin 4) (m : Fin 2) (c : LabelCfg) (s : State) (j : Fin 4) :
    (storeLabel k m c s).banks[j].cad = s.banks[j].cad := by
  have hset : (s.setLabel k m c).banks[j].cad = s.banks[j].cad := by
    simp only [State.setLabel, Fin.getElem_fin, Vector.getElem_set]
    split
    · rename_i h
      simp only [h]
    · rfl
  unfold storeLabel
  dsimp only
  split
  · exact hset
  · exact hset

/-! ### What an operation leaves of each cadence

Each operation acts on the cadences one by one. The functions here say what it does to one of them, `s` giving the
records and the counter that it goes by. -/

/-- A step notice (R133, R134). -/
def CadRun.stepped (s : State) (n : Fin 8) (x : CadRun) : CadRun :=
  match x.st with
  | .running _ _ =>
    { x with
      st := .running ((s.cadRec n).firstAt (laterThanNow s)) ((s.cadRec n).edgeTime ((s.cadRec n).firstAt (laterThanNow s)))
      pulse := none
      endedNow := false }
  | .armed _ t => if s.atOrPast t then { x with st := .done, pulse := none } else x
  | .done => { x with pulse := none }
  | _ => x

/-- A catch-up advance (R136). -/
def CadRun.caughtUp (s : State) (n : Fin 8) (x : CadRun) : CadRun :=
  match x.st with
  | .running _ t =>
    if s.atOrPast t then
      { x with
        st := .running ((s.cadRec n).firstAt (laterThanNow s)) ((s.cadRec n).edgeTime ((s.cadRec n).firstAt (laterThanNow s)))
        pulse := none
        endedNow := false }
    else { x with pulse := pulseAfter s x.pulse }
  | .armed _ t =>
    if s.atOrPast t then { x with st := .done, pulse := pulseAfter s x.pulse } else { x with pulse := pulseAfter s x.pulse }
  | _ => { x with pulse := pulseAfter s x.pulse }

/-- The traced flag set (R129). -/
def CadRun.begun (s : State) (n : Fin 8) (x : CadRun) : CadRun :=
  match x.st with
  | .waiting => { x with st := startState (s.cadRec n) true (laterThanNow s) }
  | _ => x

/-- A cadence that starts from a record (R139, R141). -/
def CadRun.restarted (r : CadRec) (traced : Bool) (least : Nat) (x : CadRun) : CadRun :=
  { st := startState r traced least, pulse := none, last := x.last, endedNow := false }

/-- A switch of banks (R141). -/
def CadRun.switched (out inc : Bank) (traced : Bool) (least : Nat) (n : Fin 8) (x : CadRun) : CadRun :=
  if out.cad[n] = inc.cad[n] then x else x.restarted inc.cad[n] traced least

theorem raise_cad_get (e : Event) (s : State) (m : Fin 8) : (raise e s).cad[m] = s.cad[m] := by
  simp only [raise_cad]

theorem stepCad_cad (n : Fin 8) (s : State) (m : Fin 8) :
    (stepCad n s).cad[m] = if m = n then s.cad[n].stepped s n else s.cad[m] := by
  have hid : s.cad[m] = if m = n then s.cad[n] else s.cad[m] := by
    split
    · rename_i h
      rw [h]
    · rfl
  cases hx : s.cad[n].st with
  | running k e =>
    simp only [stepCad, CadRun.stepped, hx]
    exact (raise_cad_get _ _ m).trans (State.setCad_get _ _ _ m)
  | armed k e =>
    by_cases hp : s.atOrPast e = true
    · simp only [stepCad, CadRun.stepped, hx, hp, if_true]
      exact (raise_cad_get _ _ m).trans (State.setCad_get _ _ _ m)
    · simp only [stepCad, CadRun.stepped, hx, if_neg hp]
      exact hid
  | done =>
    simp only [stepCad, CadRun.stepped, hx]
    exact State.setCad_get _ _ _ m
  | _ =>
    simp only [stepCad, CadRun.stepped, hx]
    exact hid

theorem catchUpCad_cad (n : Fin 8) (s : State) (m : Fin 8) :
    (catchUpCad n s).cad[m] = if m = n then s.cad[n].caughtUp s n else s.cad[m] := by
  cases hx : s.cad[n].st with
  | running k e =>
    by_cases hp : s.atOrPast e = true
    · simp only [catchUpCad, CadRun.caughtUp, hx, hp, if_true]
      exact (raise_cad_get _ _ m).trans (State.setCad_get _ _ _ m)
    · simp only [catchUpCad, CadRun.caughtUp, hx, if_neg hp]
      exact State.setCad_get _ _ _ m
  | armed k e =>
    by_cases hp : s.atOrPast e = true
    · simp only [catchUpCad, CadRun.caughtUp, hx, hp, if_true]
      exact (raise_cad_get _ _ m).trans (State.setCad_get _ _ _ m)
    · simp only [catchUpCad, CadRun.caughtUp, hx, if_neg hp]
      exact State.setCad_get _ _ _ m
  | _ =>
    simp only [catchUpCad, CadRun.caughtUp, hx]
    exact State.setCad_get _ _ _ m

theorem restartCad_cad (n : Fin 8) (r : CadRec) (least : Nat) (s : State) (m : Fin 8) :
    (restartCad n r least s).cad[m] = if m = n then s.cad[n].restarted r s.servo.traced least else s.cad[m] :=
  State.setCad_get _ _ _ _

theorem switchCad_cad (out inc : Bank) (least : Nat) (n : Fin 8) (s : State) (m : Fin 8) :
    (switchCad out inc least n s).cad[m] =
      if m = n then s.cad[n].switched out inc s.servo.traced least n else s.cad[m] := by
  unfold switchCad CadRun.switched
  split
  · split
    · rename_i h
      rw [h]
    · rfl
  · exact restartCad_cad _ _ _ _ _

/-- Acting on the cadences in turn does to each what acting on it does, where what one action goes by is not changed by
another. -/
theorem foldl_cad {K : State → Prop} {g : Fin 8 → State → State} {f : Fin 8 → CadRun → CadRun}
    (hK : ∀ n t, K t → K (g n t))
    (hg : ∀ n t, K t → ∀ m, (g n t).cad[m] = if m = n then f n t.cad[n] else t.cad[m]) (l : List (Fin 8)) (hl : l.Nodup)
    {s : State} (hs : K s) (m : Fin 8) :
    (l.foldl (fun t n => g n t) s).cad[m] = if m ∈ l then f m s.cad[m] else s.cad[m] := by
  induction l generalizing s with
  | nil => rfl
  | cons n l ih =>
    obtain ⟨hn, hl⟩ := List.nodup_cons.mp hl
    rw [List.foldl_cons, ih hl (hK n s hs), hg n s hs]
    by_cases hm : m = n
    · subst hm
      simp [hn]
    · simp [hm]

theorem allCad_foldl_cad {g : Fin 8 → State → State} {f : Fin 8 → CadRun → CadRun} {s : State}
    (hK : ∀ n (t : State), t.sameBut [.cad] (g n t))
    (hg : ∀ n t, s.sameBut [.cad] t → ∀ m, (g n t).cad[m] = if m = n then f n t.cad[n] else t.cad[m]) (m : Fin 8) :
    (allCad.foldl (fun t n => g n t) s).cad[m] = f m s.cad[m] := by
  have hm : m ∈ allCad := by
    revert m
    decide
  rw [foldl_cad (K := s.sameBut [.cad]) (fun n t ht => ht.trans (hK n t)) hg allCad (by decide) (.refl s _), if_pos hm]

theorem cadRec_congr {s t : State} (hbanks : t.banks = s.banks) (hactive : t.active = s.active) (n : Fin 8) :
    t.cadRec n = s.cadRec n := by
  simp only [State.cadRec, State.bank, hbanks, hactive]

theorem atOrPast_congr {s t : State} (h : t.time = s.time) : t.atOrPast = s.atOrPast := by
  funext x
  rw [State.atOrPast, State.atOrPast, h]

theorem laterThanNow_congr {s t : State} (h : t.time = s.time) : laterThanNow t = laterThanNow s := by
  rw [laterThanNow, laterThanNow, h]

theorem pulseAfter_congr {s t : State} (h : t.time = s.time) : pulseAfter t = pulseAfter s := by
  funext p
  cases p with
  | none => rfl
  | some e => simp only [pulseAfter, atOrPast_congr h]

/-- What an action on one cadence goes by is not changed by actions on the others. -/
theorem cadContext_eq {s t : State} (h : s.sameBut [.cad] t) (n : Fin 8) :
    t.cadRec n = s.cadRec n ∧ t.time = s.time ∧ t.servo = s.servo := by
  have hbanks : t.banks = s.banks := h .banks (by decide)
  have hactive : t.active = s.active := h .active (by decide)
  exact ⟨cadRec_congr hbanks hactive n, h .time (by decide), h .servo (by decide)⟩

theorem stepCads_cad (s : State) (m : Fin 8) : (stepCads s).cad[m] = s.cad[m].stepped s m := by
  refine allCad_foldl_cad (g := stepCad) (f := fun n x => x.stepped s n) (fun n t => (stepCad_evolves n t).same)
    (fun n t ht m => ?_) m
  obtain ⟨hrec, htime, -⟩ := cadContext_eq ht n
  rw [stepCad_cad]
  simp only [CadRun.stepped, hrec, laterThanNow_congr htime, atOrPast_congr htime]

theorem catchUpCads_cad (s : State) (m : Fin 8) : (catchUpCads s).cad[m] = s.cad[m].caughtUp s m := by
  refine allCad_foldl_cad (g := catchUpCad) (f := fun n x => x.caughtUp s n) (fun n t => (catchUpCad_evolves n t).same)
    (fun n t ht m => ?_) m
  obtain ⟨hrec, htime, -⟩ := cadContext_eq ht n
  rw [catchUpCad_cad]
  simp only [CadRun.caughtUp, hrec, laterThanNow_congr htime, pulseAfter_congr htime, atOrPast_congr htime]

theorem startWaiting_cad (s : State) (m : Fin 8) : (startWaiting s).cad[m] = s.cad[m].begun s m := by
  refine allCad_foldl_cad
    (g := fun n t =>
      match t.cad[n].st with
      | .waiting => t.setCad n { t.cad[n] with st := startState (t.cadRec n) true (laterThanNow t) }
      | _ => t)
    (f := fun n x => x.begun s n) (fun n t => ?_) (fun n t ht m => ?_) m
  · dsimp only
    split
    · exact (t.setCad_evolves n _).same
    · exact .refl t _
  · obtain ⟨hrec, htime, -⟩ := cadContext_eq ht n
    simp only [CadRun.begun]
    split
    · rw [State.setCad_get, hrec, laterThanNow_congr htime]
    · split
      · rename_i h
        rw [h]
      · rfl

theorem switchedUnits_cad (target : Fin 4) (at_ before : Nat) (s : State) (m : Fin 8) :
    (switchedUnits target at_ before s).cad[m] =
      s.cad[m].switched s.bank s.banks[target] s.servo.traced (atOrAfter at_ before) m := by
  have hser : (switchedUnits target at_ before s).cad =
      (allCad.foldl (fun t n => switchCad s.bank s.banks[target] (atOrAfter at_ before) n t) s).cad :=
    (State.evolves.foldl (fun t m => switchSer_evolves _ _ m t) bothSer _).same .cad (by decide)
  rw [hser]
  refine allCad_foldl_cad (g := switchCad s.bank s.banks[target] (atOrAfter at_ before))
    (f := fun n x => x.switched s.bank s.banks[target] s.servo.traced (atOrAfter at_ before) n)
    (fun n t => (switchCad_evolves _ _ _ n t).same) (fun n t ht m => ?_) m
  obtain ⟨-, -, hservo⟩ := cadContext_eq ht n
  rw [switchCad_cad, hservo]

theorem makeSwitch_cad (target : Fin 4) (at_ before : Nat) (s : State) (m : Fin 8) :
    (makeSwitch target at_ before s).cad[m] =
      s.cad[m].switched s.bank s.banks[target] s.servo.traced (atOrAfter at_ before) m := by
  rw [makeSwitch_eq, raise_cad]
  exact switchedUnits_cad _ _ _ _ _

@[simp] theorem makeSwitch_active (target : Fin 4) (at_ before : Nat) (s : State) :
    (makeSwitch target at_ before s).active = target := by
  rw [makeSwitch_eq, raise_active]

@[simp] theorem makeSwitch_switch (target : Fin 4) (at_ before : Nat) (s : State) :
    (makeSwitch target at_ before s).switch = none := by
  rw [makeSwitch_eq, raise_switch]

theorem makeSwitch_banks (target : Fin 4) (at_ before : Nat) (s : State) : (makeSwitch target at_ before s).banks = s.banks :=
  (makeSwitch_evolves _ _ _ s).same .banks (by decide)

@[simp] theorem tellEdge_cad (n : Fin 8) (k e : Nat) (s : State) : (tellEdge n k e s).cad = s.cad :=
  (tellEdge_evolves n k e s).same .cad (by decide)

theorem produceEdge_cad (n : Fin 8) (k t : Nat) (next : CadState) (s : State) (m : Fin 8) :
    (produceEdge n k t next s).cad[m] =
      if m = n then
        { st := next, pulse := pulseUntil s ((s.cadRec n).endTime k), last := some (k, t), endedNow := false }
      else s.cad[m] := by
  rw [produceEdge, tellEdge_cad, State.setCad_get]

/-! ### A switch reached

The operations that can make a pending switch leave the state as it was, or make it. -/

theorem tellSwitch_cases (n : Fin 8) (t before : Nat) (s : State) :
    tellSwitch n t before s = s ∨
      ∃ q, s.switch = some q ∧ q.trigger = .atEdge n ∧ tellSwitch n t before s = makeSwitch q.target t before s := by
  unfold tellSwitch
  split
  · rename_i q hq
    split
    · rename_i c hc
      split
      · rename_i h
        exact .inr ⟨q, hq, h ▸ hc, rfl⟩
      · exact .inl rfl
    · exact .inl rfl
  · exact .inl rfl

theorem reevaluateSwitch_cases (before s : State) :
    reevaluateSwitch before s = s ∨
      ∃ q at_, s.switch = some q ∧ reevaluateSwitch before s = makeSwitch q.target at_ s.prevTime s := by
  unfold reevaluateSwitch
  split
  · rename_i q hq
    split
    · split
      · exact .inr ⟨q, _, hq, rfl⟩
      · exact .inl rfl
    · split
      · exact .inr ⟨q, _, hq, rfl⟩
      · exact .inl rfl
  · exact .inl rfl

theorem atTimeReached_cases (s : State) :
    atTimeReached s = s ∨
      ∃ q at_, s.switch = some q ∧ atTimeReached s = endEvent s (makeSwitch q.target at_ s.prevTime s) := by
  unfold atTimeReached
  split
  · rename_i q hq
    split
    · split
      · exact .inr ⟨q, _, hq, rfl⟩
      · exact .inl rfl
    · exact .inl rfl
  · exact .inl rfl

/-! ### The runtime that fits a record -/

theorem CadRun.fits_of_st {r : CadRec} {x y : CadRun} (h : x.fits r = true) (hst : y.st = x.st)
    (hp : x.pulse = none → y.pulse = none) : y.fits r = true := by
  unfold CadRun.fits at h ⊢
  rw [hst]
  cases hx : x.st <;> simp only [hx, Bool.and_eq_true, beq_iff_eq] at h ⊢
  · exact ⟨h.1, hp h.2⟩
  · exact ⟨h.1, hp h.2⟩
  · exact h
  · exact h
  · exact h
  · exact h

theorem CadRun.restarted_fits (r : CadRec) (traced : Bool) (least : Nat) (x : CadRun) :
    (x.restarted r traced least).fits r = true := by
  unfold CadRun.restarted startState CadRun.fits
  cases hm : r.mode
  · simp
  · dsimp only
    split_ifs <;> simp
  · simp

theorem CadRun.stepped_fits {s : State} {n : Fin 8} {x : CadRun} (h : x.fits (s.cadRec n) = true) :
    (x.stepped s n).fits (s.cadRec n) = true := by
  unfold CadRun.stepped
  split
  · rename_i hx
    unfold CadRun.fits at h ⊢
    rw [hx] at h
    simp_all
  · rename_i hx
    split
    · unfold CadRun.fits at h ⊢
      rw [hx] at h
      simp_all
    · exact h
  · exact CadRun.fits_of_st h rfl fun _ => rfl
  · exact h

theorem pulseAfter_none (s : State) : pulseAfter s none = none := rfl

theorem CadRun.caughtUp_fits {s : State} {n : Fin 8} {x : CadRun} (h : x.fits (s.cadRec n) = true) :
    (x.caughtUp s n).fits (s.cadRec n) = true := by
  have hended : CadRun.fits (s.cadRec n) { x with pulse := pulseAfter s x.pulse } = true :=
    CadRun.fits_of_st h rfl fun hp => by
      dsimp only
      rw [hp, pulseAfter_none]
  unfold CadRun.caughtUp
  split
  · rename_i hx
    split
    · unfold CadRun.fits at h ⊢
      rw [hx] at h
      simp_all
    · exact hended
  · rename_i hx
    split
    · unfold CadRun.fits at h ⊢
      rw [hx] at h
      simp_all
    · exact hended
  · exact hended

theorem CadRun.begun_fits {s : State} {n : Fin 8} {x : CadRun} (h : x.fits (s.cadRec n) = true) :
    (x.begun s n).fits (s.cadRec n) = true := by
  unfold CadRun.begun
  split
  · rename_i hx
    refine CadRun.fits_of_st (x := x.restarted (s.cadRec n) true (laterThanNow s)) (CadRun.restarted_fits _ _ _ _) rfl fun _ => ?_
    unfold CadRun.fits at h
    rw [hx] at h
    simp only [Bool.and_eq_true, beq_iff_eq] at h
    exact h.2
  · exact h

/-! ### `State.cadencesOk` -/

theorem cadencesOk_of_sameBut {F : List Field} {s t : State} (h : s.sameBut F t) (hs : s.cadencesOk)
    (hF : Field.cad ∉ F ∧ Field.banks ∉ F ∧ Field.active ∉ F) : t.cadencesOk := by
  obtain ⟨hcad, hbanks, hactive⟩ := hF
  have hc : t.cad = s.cad := h .cad hcad
  have hb : t.banks = s.banks := h .banks hbanks
  have ha : t.active = s.active := h .active hactive
  intro n
  rw [cadRec_congr hb ha, hc]
  exact hs n

/-- The records in force as they were and each cadence brought from one runtime that fits to another. -/
theorem cadencesOk_of_fits {F : List Field} {s t : State} (h : s.sameBut F t) (hs : s.cadencesOk)
    (hfits : ∀ n : Fin 8, s.cad[n].fits (s.cadRec n) = true → t.cad[n].fits (s.cadRec n) = true)
    (hF : Field.banks ∉ F ∧ Field.active ∉ F) : t.cadencesOk := by
  obtain ⟨hbanks, hactive⟩ := hF
  have hb : t.banks = s.banks := h .banks hbanks
  have ha : t.active = s.active := h .active hactive
  intro n
  rw [cadRec_congr hb ha]
  exact hfits n (hs n)

theorem setCad_cadencesOk {s : State} {n : Fin 8} {x : CadRun} (hs : s.cadencesOk) (hx : x.fits (s.cadRec n) = true) :
    (s.setCad n x).cadencesOk :=
  cadencesOk_of_fits (s.setCad_evolves n x).same hs (fun m hm => by
    rw [State.setCad_get]
    split
    · rename_i h
      rwa [h]
    · exact hm) (by decide)

theorem makeSwitch_cadencesOk (target : Fin 4) (at_ before : Nat) {s : State} (hs : s.cadencesOk) :
    (makeSwitch target at_ before s).cadencesOk := fun n => by
  have hrec : (makeSwitch target at_ before s).cadRec n = s.banks[target].cad[n] := by
    simp only [State.cadRec, State.bank, makeSwitch_banks, makeSwitch_active]
  rw [hrec, makeSwitch_cad, CadRun.switched]
  split
  · rename_i h
    rw [← h]
    exact hs n
  · exact CadRun.restarted_fits _ _ _ _

theorem endEvent_cadencesOk (s : State) {t : State} (ht : t.cadencesOk) : (endEvent s t).cadencesOk :=
  cadencesOk_of_sameBut (endEvent_evolves s t).same ht (by decide)

theorem settleTick_cadencesOk {s : State} (hs : s.cadencesOk) : (settleTick s).cadencesOk :=
  cadencesOk_of_sameBut (settleTick_evolves s).same hs (by decide)

theorem raise_cadencesOk (e : Event) {s : State} (hs : s.cadencesOk) : (raise e s).cadencesOk :=
  cadencesOk_of_sameBut (raise_evolves e s).same hs (by decide)

theorem tellSwitch_cadencesOk (n : Fin 8) (t before : Nat) {s : State} (hs : s.cadencesOk) :
    (tellSwitch n t before s).cadencesOk := by
  obtain h | ⟨q, -, -, h⟩ := tellSwitch_cases n t before s
  · rwa [h]
  · rw [h]
    exact makeSwitch_cadencesOk _ _ _ hs

theorem reevaluateSwitch_cadencesOk (before : State) {s : State} (hs : s.cadencesOk) :
    (reevaluateSwitch before s).cadencesOk := by
  obtain h | ⟨q, at_, -, h⟩ := reevaluateSwitch_cases before s
  · rwa [h]
  · rw [h]
    exact makeSwitch_cadencesOk _ _ _ hs

theorem produceEdge_cadencesOk {n : Fin 8} (k t : Nat) {next : CadState} {s : State} (hs : s.cadencesOk)
    (hnext : ∀ p l, CadRun.fits (s.cadRec n) { st := next, pulse := p, last := l, endedNow := false } = true) :
    (produceEdge n k t next s).cadencesOk :=
  cadencesOk_of_fits (produceEdge_evolves n k t next s).same hs (fun m hm => by
    rw [produceEdge_cad]
    split
    · rename_i h
      subst h
      exact hnext _ _
    · exact hm) (by decide)

theorem cadenceEdge_cadencesOk (n : Fin 8) {s : State} (hs : s.cadencesOk) : (cadenceEdge n s).cadencesOk := by
  have hn := hs n
  unfold cadenceEdge
  dsimp only
  split
  · rename_i k t hx
    split
    · refine endEvent_cadencesOk s (tellSwitch_cadencesOk _ _ _ (produceEdge_cadencesOk _ _ hs fun _ _ => ?_))
      unfold CadRun.fits at hn ⊢
      rw [hx] at hn
      simp_all
    · exact hs
  · exact hs

theorem pulseEnd_cadencesOk (n : Fin 8) {s : State} (hs : s.cadencesOk) : (pulseEnd n s).cadencesOk := by
  unfold pulseEnd
  split
  · split
    · exact endEvent_cadencesOk s (setCad_cadencesOk hs (CadRun.fits_of_st (hs n) rfl fun _ => rfl))
    · exact hs
  · exact hs

/-- An ARMED cadence that fits its record still fits it in DONE, whatever its output. -/
theorem CadRun.done_fits {r : CadRec} {x : CadRun} {k t : Nat} (hx : x.st = .armed k t) (h : x.fits r = true)
    (p : Option Nat) (l : Option (Nat × Nat)) (e : Bool) :
    CadRun.fits r { st := .done, pulse := p, last := l, endedNow := e } = true := by
  unfold CadRun.fits at h ⊢
  rw [hx] at h
  simp_all

theorem oneshotFire_cadencesOk (n : Fin 8) {s : State} (hs : s.cadencesOk) : (oneshotFire n s).cadencesOk := by
  unfold oneshotFire
  dsimp only
  split
  · rename_i k t hx
    split
    · exact hs
    · split
      · exact endEvent_cadencesOk s (tellSwitch_cadencesOk _ _ _
          (raise_cadencesOk _ (setCad_cadencesOk hs (CadRun.done_fits hx (hs n) _ _ _))))
      · split
        · exact hs
        · exact endEvent_cadencesOk s (tellSwitch_cadencesOk _ _ _
            (raise_cadencesOk _ (produceEdge_cadencesOk _ _ hs fun p l => CadRun.done_fits hx (hs n) p l false)))
  · exact hs

theorem atTimeReached_cadencesOk {s : State} (hs : s.cadencesOk) : (atTimeReached s).cadencesOk := by
  obtain h | ⟨q, at_, -, h⟩ := atTimeReached_cases s
  · rwa [h]
  · rw [h]
    exact endEvent_cadencesOk s (makeSwitch_cadencesOk _ _ _ hs)

/-! ### The traced flag -/

theorem State.evolves.traced_eq {F : List Field} {s t : State} (h : s.evolves F t) (hF : Field.servo ∉ F) :
    t.servo.traced = s.servo.traced := by
  have hservo : t.servo = s.servo := h.same .servo hF
  rw [hservo]

theorem servoSelection_traced (now : Option SourceName) (s : State) :
    (servoSelection now s).servo.traced = s.servo.traced := by
  unfold servoSelection
  split
  · split
    · rw [enterAcquire_servo]
      rfl
    · rfl
  · rfl
  · rfl
  · rfl
  · rw [enterAcquire_servo]
    rfl
  · split
    · rw [enterHoldover_servo]
      rfl
    · rfl
  · rw [enterAcquire_servo]
    rfl
  · rfl

theorem rerunSelection_traced (old : Option SourceName) (s : State) :
    (rerunSelection old s).servo.traced = s.servo.traced := by
  unfold rerunSelection
  dsimp only
  split
  · rfl
  · rw [tellSelection, servoSelection_traced]
    have h : ∀ t : State, (exchangeSourceChange (s.bestEligible.map fun r => (r.sender, r.portNo)) (raise .sourceChanged t)).servo =
        t.servo := fun t =>
      ((exchangeSourceChange_evolves _ _).same .servo (by decide)).trans (raise_servo _ _)
    exact congrArg Servo.traced (h _)

theorem takeBeacon_traced (content : List Byte) (pos : Nat) (h : Hdr) (st : Stamp) (s : State) :
    (takeBeacon content pos h st s).servo.traced = s.servo.traced := by
  unfold takeBeacon
  dsimp only
  split
  · rfl
  · split
    · split
      · split
        · rfl
        · split
          · exact rerunSelection_traced _ _
          · rfl
      · rfl
    · split
      · rfl
      · split
        · split
          · split
            · exact rerunSelection_traced _ _
            · rfl
          · rfl
        · rfl

/-! ### Samples that set it -/

/-- What a sample can lead to: a state with the cadences, the outputs and the traced flag as they were or, when it sets
the traced flag, a state with its WAITING cadences started and its tick settled (R108, R129). -/
def State.mayStart (F : List Field) (s t : State) : Prop :=
  ∃ u : State, s.evolves F u ∧
    ((t = u ∧ u.servo.traced = s.servo.traced) ∨ (t = settleTick (startWaiting u) ∧ u.servo.traced = true))

theorem State.evolves.mayStart {F : List Field} {s t : State} (h : s.evolves F t)
    (htr : t.servo.traced = s.servo.traced) : s.mayStart F t := ⟨t, h, .inl ⟨rfl, htr⟩⟩

theorem State.mayStart.after {F G : List Field} {s t u : State} (h : t.mayStart G u) (k : s.evolves F t)
    (htr : t.servo.traced = s.servo.traced) (hG : ∀ f ∈ G, f ∈ F) : s.mayStart F u := by
  obtain ⟨v, hv, hu⟩ := h
  rw [htr] at hu
  exact ⟨v, k.trans (hv.mono hG), hu⟩

theorem State.mayStart.keeps {F : List Field} {P : State → Prop} {s t : State} (h : s.mayStart F t) (hs : P s)
    (hev : ∀ {u}, s.evolves F u → P s → P u) (hstart : ∀ {u}, P u → P (settleTick (startWaiting u))) : P t := by
  obtain ⟨u, hu, ⟨rfl, -⟩ | ⟨rfl, -⟩⟩ := h
  · exact hev hu hs
  · exact hstart (hev hu hs)

theorem setTraced_mayStart (s : State) : s.mayStart [.servo] (setTraced s) := by
  unfold setTraced
  split
  · exact (State.evolves.refl s _).mayStart rfl
  · exact ⟨_, setServo_evolves s _, .inr ⟨rfl, rfl⟩⟩

theorem lockDetect_mayStart (theta : Int) (s : State) : s.mayStart [.servo] (lockDetect theta s) := by
  unfold lockDetect
  split
  · split
    · exact ((setServo_evolves s _).trans ((raise_evolves _ _).mono (by decide))).mayStart (by rw [raise_servo])
    · exact (State.evolves.refl s _).mayStart rfl
  · split
    · split
      · exact (setTraced_mayStart _).after ((setServo_evolves s _).trans ((raise_evolves _ _).mono (by decide)))
          (by rw [raise_servo]) (by decide)
      · exact (setServo_evolves s _).mayStart rfl
    · exact (setServo_evolves s _).mayStart rfl

theorem applySample_mayStart (theta : Int) (s : State) : s.mayStart [.servo] (applySample theta s) :=
  (lockDetect_mayStart _ _).after (setServo_evolves s _) rfl (by decide)

theorem acquireSample_mayStart (o : Offset) (s : State) : s.mayStart [.servo, .steps] (acquireSample o s) := by
  unfold acquireSample
  split
  · exact State.evolves.mayStart (State.sameBut.evolves (fun f hf => by cases f <;> simp at hf <;> rfl) rfl rfl rfl) rfl
  · exact (applySample_mayStart _ _).after ((setServo_evolves s _).mono (by decide)) rfl (by decide)

theorem servoSample_mayStart (o : Offset) (s : State) : s.mayStart [.servo, .steps] (servoSample o s) := by
  unfold servoSample
  split
  · exact (State.evolves.refl s _).mayStart rfl
  · exact acquireSample_mayStart o s
  · unfold trackSample
    split
    · split
      · exact (acquireSample_mayStart o _).after ((enterAcquire_evolves _ s).mono (by decide))
          (by rw [enterAcquire_servo]; rfl) (by decide)
      · exact ((setServo_evolves s _).mono (by decide) : s.evolves [.servo, .steps] _).mayStart rfl
    · exact (applySample_mayStart _ s).after (.refl s _) rfl (by decide)
  · exact (State.evolves.refl s _).mayStart rfl

/-- A change of the exchange unit alone. -/
theorem mayStart_of_exch {s t : State} (h : s.evolves [.exch] t) : s.mayStart [.exch, .servo, .steps] t :=
  State.evolves.mayStart (h.mono (by decide)) (h.traced_eq (by decide))

/-- A new Mark difference changes the exchange unit and no more, or gives the servo a sample besides. -/
theorem newMarkDiff_cases (m : Int) (seq : BitVec 16) (s : State) :
    s.evolves [.exch] (newMarkDiff m seq s) ∨
      ∃ o u, s.evolves [.exch] u ∧ newMarkDiff m seq s = servoSample o u := by
  unfold newMarkDiff
  dsimp only
  split
  · exact .inl (setExch_evolves s _)
  · exact .inr ⟨_, _, setExch_evolves s _, rfl⟩

/-- A message of an exchange changes the exchange unit and no more, or gives the servo a sample besides. -/
theorem exchangeTake_cases (c : Copy) (h : Hdr) (s : State) :
    s.evolves [.exch] (exchangeTake c h s) ∨
      ∃ o u, s.evolves [.exch] u ∧ exchangeTake c h s = servoSample o u := by
  have hdiff : ∀ (m : Int) (seq : BitVec 16) (t : State), s.evolves [.exch] t →
      s.evolves [.exch] (newMarkDiff m seq t) ∨ ∃ o u, s.evolves [.exch] u ∧ newMarkDiff m seq t = servoSample o u :=
    fun m seq t ht => by
      obtain h | ⟨o, u, hu, h⟩ := newMarkDiff_cases m seq t
      · exact .inl (ht.trans h)
      · exact .inr ⟨o, u, ht.trans hu, h⟩
  have hno : s.evolves [.exch] s := .refl s _
  unfold exchangeTake
  dsimp only
  split
  · exact .inl hno
  · split
    · split
      · exact .inl (twoStepMark_evolves c h s)
      · unfold oneStepMark
        dsimp only
        split
        · exact .inl hno
        · exact hdiff _ _ _ ((setExch_evolves s _).trans (renewTemplate_evolves _ _))
    · split
      · unfold followMatch
        split
        · exact .inl hno
        · split
          · dsimp only
            split
            · exact hdiff _ _ _ (setExch_evolves s _)
            · exact .inl (setExch_evolves s _)
          · exact .inl hno
      · split
        · split
          · exact .inl (probeReply_evolves c h s)
          · exact .inl hno
        · exact .inl hno

theorem exchangeTake_mayStart (c : Copy) (h : Hdr) (s : State) :
    s.mayStart [.exch, .servo, .steps] (exchangeTake c h s) := by
  obtain h | ⟨o, u, hu, h⟩ := exchangeTake_cases c h s
  · exact mayStart_of_exch h
  · rw [h]
    exact (servoSample_mayStart o u).after (hu.mono (by decide)) (hu.traced_eq (by decide)) (by decide)

/-- What the intake of a copy can change, but for what the setting of the traced flag does. -/
abbrev quietFields : List Field := [.copies, .sources, .exch, .servo, .steps]

theorem intakeNext_mayStart (s : State) : s.mayStart quietFields (intakeNext s) := by
  unfold intakeNext
  split
  · exact (State.evolves.refl s _).mayStart rfl
  · rename_i c rest _
    have hcopies : s.evolves quietFields { s with copies := rest } :=
      State.sameBut.evolves (fun f hf => by cases f <;> simp at hf <;> rfl) rfl rfl rfl
    dsimp only
    split
    · split
      · exact (hcopies.trans ((takeBeacon_evolves _ _ _ _ _).mono (by decide))).mayStart (takeBeacon_traced _ _ _ _ _)
      · exact (exchangeTake_mayStart _ _ _).after hcopies rfl (by decide)
    · exact hcopies.mayStart rfl

theorem startWaiting_cadencesOk {s : State} (hs : s.cadencesOk) : (startWaiting s).cadencesOk :=
  cadencesOk_of_fits (startWaiting_evolves s).same hs (fun n hn => by
    rw [startWaiting_cad]
    exact CadRun.begun_fits hn) (by decide)

theorem intakeNext_cadencesOk {s : State} (hs : s.cadencesOk) : (intakeNext s).cadencesOk :=
  (intakeNext_mayStart s).keeps hs (fun h hs => cadencesOk_of_sameBut h.same hs (by decide))
    fun h => settleTick_cadencesOk (startWaiting_cadencesOk h)

/-! ### Ticks -/

theorem limitPulse_none (s : State) : limitPulse s none = none := rfl

theorem tickOutputs_cad (s : State) (n : Fin 8) :
    (tickOutputs s).cad[n] = { s.cad[n] with pulse := limitPulse s s.cad[n].pulse } := by
  have hclose : (closeTick (limitPulses s)).cad = (limitPulses s).cad := (closeTick_evolves _).same .cad (by decide)
  have h : (tickOutputs s).cad = (limitPulses s).cad := by
    rw [tickOutputs, settleTick_cad]
    exact hclose
  rw [h, limitPulses_get]

theorem tickEnd_cadencesOk (inp : TickIn) {s : State} (hs : s.cadencesOk) : (tickEnd inp s).cadencesOk := by
  have hstamps : (takeEgress (takeIngress .d inp.rxD (takeIngress .n inp.rxN s))).cadencesOk :=
    cadencesOk_of_sameBut (((takeIngress_sameBut .n inp.rxN s).mono (by decide)).trans
      (((takeIngress_sameBut .d inp.rxD _).mono (by decide)).trans (takeEgress_sameBut _))) hs (by decide)
  exact cadencesOk_of_fits (tickOutputs_evolves _).same hstamps (fun n hn => by
    rw [tickEnd, tickOutputs_cad]
    exact CadRun.fits_of_st hn rfl fun hp => by
      dsimp only
      rw [hp, limitPulse_none]) (by decide)

theorem makeStep_cadencesOk (t : TimeVal) {s : State} (hs : s.cadencesOk) : (makeStep t s).cadencesOk := by
  rw [makeStep_eq]
  refine reevaluateSwitch_cadencesOk _ (cadencesOk_of_sameBut (stepMarked_evolves _).same ?_ (by decide))
  refine cadencesOk_of_fits (stepCads_evolves _).same (cadencesOk_of_sameBut (stepTold_evolves t s).same hs (by decide))
    (fun n hn => ?_) (by decide)
  rw [stepCads_cad]
  exact CadRun.stepped_fits hn

theorem takeSteps_cadencesOk {s : State} (hs : s.cadencesOk) : (takeSteps s).cadencesOk := by
  refine List.foldlRecOn (motive := State.cadencesOk) _ _ hs fun t ht r _ => ?_
  show (takeStep r t).cadencesOk
  unfold takeStep
  split
  · exact makeStep_cadencesOk _ ht
  · exact ht

theorem tickCads_cadencesOk {s : State} (hs : s.cadencesOk) : (tickCads s).cadencesOk :=
  cadencesOk_of_fits (tickCads_evolves s).same hs (fun n hn => by
    rw [tickCads_get]
    exact CadRun.fits_of_st hn rfl id) (by decide)

theorem tickAll_cadencesOk (inp : TickIn) {s : State} (hs : s.cadencesOk) : (tickAll inp s).cadencesOk := by
  rw [tickAll_eq]
  refine tickEnd_cadencesOk inp (takeSteps_cadencesOk (cadencesOk_of_sameBut (setClock_evolves _ _).same ?_ (by decide)))
  refine cadencesOk_of_sameBut (tickUnits_evolves inp _).same (tickCads_cadencesOk ?_) (by decide)
  exact cadencesOk_of_sameBut (tickCounters_evolves _ s).same hs (by decide)

theorem lossAdvance_cadencesOk (n : Nat) (inp : TickIn) {s : State} (hs : s.cadencesOk) :
    (lossAdvance n inp s).cadencesOk := by
  refine cadencesOk_of_sameBut (setPrevTimes_evolves _ _ _).same ?_ (by decide)
  refine cadencesOk_of_sameBut (tickUnits_evolves inp _).same (tickCads_cadencesOk ?_) (by decide)
  refine cadencesOk_of_sameBut (tickCounters_evolves _ _).same ?_ (by decide)
  exact cadencesOk_of_sameBut (setClock_evolves s _).same hs (by decide)

theorem clockLoss_cadencesOk (n : Nat) (inp : TickIn) {s : State} (hs : s.cadencesOk) :
    (clockLoss n inp s).cadencesOk := by
  by_cases h : s.clock = .normal
  · rw [clockLoss_of_normal n inp h]
    refine tickEnd_cadencesOk inp (raise_cadencesOk _ ?_)
    refine cadencesOk_of_sameBut (servoClockLoss_evolves _).same (reevaluateSwitch_cadencesOk _ ?_) (by decide)
    exact cadencesOk_of_fits (catchUpCads_evolves _).same (lossAdvance_cadencesOk n inp hs) (fun m hm => by
      rw [catchUpCads_cad]
      exact CadRun.caughtUp_fits hm) (by decide)
  · rwa [clockLoss_of_backup n inp h]

/-! ### Writes and the agent -/

theorem cadencesOk_of_records {s t : State} (hs : s.cadencesOk) (hcad : t.cad = s.cad) (hactive : t.active = s.active)
    (hrec : ∀ j : Fin 4, t.banks[j].cad = s.banks[j].cad) : t.cadencesOk := fun n => by
  have hn : t.cadRec n = s.cadRec n := by
    simp only [State.cadRec, State.bank, hactive, hrec]
  rw [hn, hcad]
  exact hs n

theorem storeCad_cadencesOk (k : Fin 4) (n : Fin 8) (r : CadRec) {s : State} (hs : s.cadencesOk) :
    (storeCad k n r s).cadencesOk := by
  have hrec : ∀ m, (s.setCadRec k n r).cadRec m = if s.active = k ∧ m = n then r else s.cadRec m := fun m =>
    State.setCadRec_get s k n r s.active m
  unfold storeCad
  dsimp only
  split
  · rename_i h
    refine endEvent_cadencesOk s fun m => ?_
    rw [restartCad_cad, show (restartCad n r (laterThanNow s) (s.setCadRec k n r)).cadRec m = (s.setCadRec k n r).cadRec m from rfl,
      hrec]
    by_cases hm : m = n
    · rw [if_pos hm, if_pos ⟨h.1.symm, hm⟩]
      exact CadRun.restarted_fits _ _ _ _
    · rw [if_neg hm, if_neg fun h => hm h.2]
      exact hs m
  · rename_i h
    intro m
    rw [hrec]
    split
    · rename_i hm
      obtain ⟨ha, rfl⟩ := hm
      subst ha
      have hr : s.cadRec m = r := by
        by_contra hne
        exact h ⟨rfl, hne⟩
      exact hr ▸ hs m
    · exact hs m

theorem writeEntry_cadences {t : TableId} {i : Nat} {b : List Byte} {s u : State} {c : Bool}
    (hs : s.recordsOk ∧ s.cadencesOk) (h : writeEntry t i b s = .applied c u) : u.recordsOk ∧ u.cadencesOk := by
  obtain ⟨hrec, hcad⟩ := hs
  obtain ⟨n, e, -, rfl⟩ | ⟨-, -, -, rfl⟩ | ⟨cfg, -, rfl⟩ | rfl | ⟨k, n, r, -, hr, rfl⟩ | ⟨k, n, r, -, rfl⟩ |
    ⟨k, m, r, -, rfl⟩ | ⟨n, r, -, rfl⟩ | ⟨g, r, -, rfl⟩ | ⟨n, rfl⟩ := writeEntry_applied h
  · exact ⟨hrec, hcad⟩
  · exact ⟨recordsOk_of_sameBut (s.setPort_sameBut _ _) hrec (by decide),
      cadencesOk_of_sameBut (s.setPort_sameBut _ _) hcad (by decide)⟩
  · exact ⟨recordsOk_of_sameBut (applyServo_evolves cfg s).same hrec (by decide),
      cadencesOk_of_sameBut (applyServo_evolves cfg s).same hcad (by decide)⟩
  · exact ⟨hrec, hcad⟩
  · exact ⟨storeCad_recordsOk (decodeCad_legal hr) hrec, storeCad_cadencesOk k n r hcad⟩
  · refine ⟨fun j m => ?_, cadencesOk_of_records hcad rfl rfl (setRoute_cad s k n r)⟩
    rw [setRoute_cad]
    exact hrec j m
  · refine ⟨fun j m => ?_, cadencesOk_of_records hcad ((storeLabel_evolves k m r s).same .cad (by decide))
      ((storeLabel_evolves k m r s).same .active (by decide)) (storeLabel_cad k m r s)⟩
    rw [storeLabel_cad]
    exact hrec j _
  · exact ⟨hrec, hcad⟩
  · exact ⟨hrec, hcad⟩
  · exact ⟨hrec, hcad⟩

theorem serve_cadences {c : Command} {core : List Byte → State → Reply}
    (hcore : ∀ (b : List Byte) (s : State), s.recordsOk ∧ s.cadencesOk →
      (core b s).after.recordsOk ∧ (core b s).after.cadencesOk) {s : State} (hs : s.recordsOk ∧ s.cadencesOk) :
    (serve c core s).recordsOk ∧ (serve c core s).cadencesOk :=
  serve_keeps (P := fun s => s.recordsOk ∧ s.cadencesOk) (fun _ _ _ _ h => h)
    (fun _ _ h hs => ⟨recordsOk_of_sameBut h.same hs.1 (by decide), cadencesOk_of_sameBut h.same hs.2 (by decide)⟩) hcore hs

theorem armed_fits {r : CadRec} (h : r.mode = .oneShot) (x : CadRun) (k : Nat) :
    CadRun.fits r { x with st := .armed k (r.edgeTime k) } = true := by
  simp [CadRun.fits, h]

theorem idle_fits {r : CadRec} (h : r.mode = .oneShot) (x : CadRun) : CadRun.fits r { x with st := .idle } = true := by
  simp [CadRun.fits, h]

theorem armCore_cadencesOk (b : List Byte) {s : State} (hs : s.cadencesOk) : (armCore b s).after.cadencesOk := by
  obtain h | ⟨n, k, -, hm, -, h⟩ := armCore_after b s
  · rwa [h]
  · rw [h]
    exact settleTick_cadencesOk (setCad_cadencesOk hs (armed_fits hm _ k))

theorem disarmCore_cadencesOk (b : List Byte) {s : State} (hs : s.cadencesOk) : (disarmCore b s).after.cadencesOk := by
  obtain h | ⟨n, hm, h⟩ := disarmCore_after b s
  · rwa [h]
  · rw [h]
    exact settleTick_cadencesOk (setCad_cadencesOk hs (idle_fits hm _))

/-! ### Every command -/

theorem after_cadences (c : Instr) {s : State} (hs : s.recordsOk ∧ s.cadencesOk) :
    (c.after s).recordsOk ∧ (c.after s).cadencesOk := by
  have hrec : Field.banks ∉ c.changes → (c.after s).recordsOk := recordsOk_of_sameBut (after_sameBut c s) hs.1
  cases c with
  | coldReset => exact ⟨(by decide +kernel : State.reset.recordsOk), (by decide +kernel : State.reset.cadencesOk)⟩
  | timingCopyIntake => exact ⟨hrec (by simp [Instr.changes]), intakeNext_cadencesOk hs.2⟩
  | tick inp =>
    refine ⟨hrec (by simp [Instr.changes]), ?_⟩
    rw [after_eq_of_exec (t := tickAll inp s) rfl]
    exact tickAll_cadencesOk inp hs.2
  | stepTick inp =>
    refine ⟨hrec (by simp [Instr.changes]), ?_⟩
    rw [after_eq_of_exec (t := stepTick inp s) rfl, stepTick]
    split
    · exact hs.2
    · exact tickAll_cadencesOk inp hs.2
  | clockLoss n inp =>
    refine ⟨hrec (by simp [Instr.changes]), ?_⟩
    rw [after_eq_of_exec (t := clockLoss n inp s) rfl]
    exact clockLoss_cadencesOk n inp hs.2
  | cadenceEdge n => exact ⟨hrec (by simp [Instr.changes]), cadenceEdge_cadencesOk n hs.2⟩
  | pulseEnd n => exact ⟨hrec (by simp [Instr.changes]), pulseEnd_cadencesOk n hs.2⟩
  | oneshotFire n => exact ⟨hrec (by simp [Instr.changes]), oneshotFire_cadencesOk n hs.2⟩
  | atTimeReached => exact ⟨hrec (by simp [Instr.changes]), atTimeReached_cadencesOk hs.2⟩
  | writeTable => exact serve_cadences (fun b t ht => writeTableCore_keeps writeEntry_cadences b ht) hs
  | armOneshot =>
    exact serve_cadences (fun b t ht => ⟨recordsOk_of_sameBut (armCore_evolves b t).same ht.1 (by decide),
      armCore_cadencesOk b ht.2⟩) hs
  | disarmOneshot =>
    exact serve_cadences (fun b t ht => ⟨recordsOk_of_sameBut (disarmCore_evolves b t).same ht.1 (by decide),
      disarmCore_cadencesOk b ht.2⟩) hs
  | _ => exact ⟨hrec (by simp [Instr.changes]), cadencesOk_of_sameBut (after_sameBut _ s) hs.2 (by simp [Instr.changes])⟩

/-- Settles O7: what each operation leaves of a cadence fits the record it goes by. -/
theorem cadencesMatchRecords : Obligations.CadencesMatchRecords := fun _ _ hs h =>
  step_keeps (P := fun s => s.recordsOk ∧ s.cadencesOk) (fun _ _ h => h) (fun c _ h => after_cadences c h) hs h

end Sys2Proof.Machine
end

section
/-!
PROOFS. The pending switch (R147), the capture lines (R178, R181, R182, R189), and the outputs of a tick that wait for its
events (R159).
-/

namespace Sys2Proof.Machine

/-! ### The pending switch -/

theorem switchOk_of_sameBut {F : List Field} {s t : State} (h : s.sameBut F t) (hs : s.switchOk)
    (hF : Field.switch ∉ F ∧ Field.active ∉ F) : t.switchOk := by
  obtain ⟨hsw, hact⟩ := hF
  have hswitch : t.switch = s.switch := h .switch hsw
  have hactive : t.active = s.active := h .active hact
  rwa [State.switchOk, hswitch, hactive]

theorem switchOk_of_none {s : State} (h : s.switch = none) : s.switchOk := fun q hq => by
  rw [h] at hq
  cases hq

theorem makeSwitch_switchOk (target : Fin 4) (at_ before : Nat) (s : State) : (makeSwitch target at_ before s).switchOk :=
  switchOk_of_none (makeSwitch_switch _ _ _ _)

theorem tellSwitch_switchOk (n : Fin 8) (t before : Nat) {s : State} (hs : s.switchOk) :
    (tellSwitch n t before s).switchOk := by
  obtain h | ⟨q, -, -, h⟩ := tellSwitch_cases n t before s
  · rwa [h]
  · rw [h]
    exact makeSwitch_switchOk _ _ _ _

theorem reevaluateSwitch_switchOk (before : State) {s : State} (hs : s.switchOk) :
    (reevaluateSwitch before s).switchOk := by
  obtain h | ⟨q, at_, -, h⟩ := reevaluateSwitch_cases before s
  · rwa [h]
  · rw [h]
    exact makeSwitch_switchOk _ _ _ _

theorem endEvent_switchOk (s : State) {t : State} (ht : t.switchOk) : (endEvent s t).switchOk :=
  switchOk_of_sameBut (endEvent_evolves s t).same ht (by decide)

theorem cadenceEdge_switchOk (n : Fin 8) {s : State} (hs : s.switchOk) : (cadenceEdge n s).switchOk := by
  unfold cadenceEdge
  dsimp only
  split
  · split
    · exact endEvent_switchOk s
        (tellSwitch_switchOk _ _ _ (switchOk_of_sameBut (produceEdge_evolves _ _ _ _ s).same hs (by decide)))
    · exact hs
  · exact hs

theorem oneshotFire_switchOk (n : Fin 8) {s : State} (hs : s.switchOk) : (oneshotFire n s).switchOk := by
  unfold oneshotFire
  dsimp only
  split
  · split
    · exact hs
    · split
      · refine endEvent_switchOk s (tellSwitch_switchOk _ _ _ ?_)
        exact switchOk_of_sameBut (raise_evolves _ _).same
          (switchOk_of_sameBut (s.setCad_evolves n _).same hs (by decide)) (by decide)
      · split
        · exact hs
        · refine endEvent_switchOk s (tellSwitch_switchOk _ _ _ ?_)
          exact switchOk_of_sameBut (raise_evolves _ _).same
            (switchOk_of_sameBut (produceEdge_evolves _ _ _ _ s).same hs (by decide)) (by decide)
  · exact hs

theorem atTimeReached_switchOk {s : State} (hs : s.switchOk) : (atTimeReached s).switchOk := by
  obtain h | ⟨q, at_, -, h⟩ := atTimeReached_cases s
  · rwa [h]
  · rw [h]
    exact endEvent_switchOk s (makeSwitch_switchOk _ _ _ _)

theorem tickUnits_switchOk (inp : TickIn) {s : State} (hs : s.switchOk) : (tickUnits inp s).switchOk := fun q hq => by
  obtain ⟨q', hq', rfl⟩ := Option.map_eq_some_iff.mp hq
  exact hs q' hq'

theorem takeSteps_switchOk {s : State} (hs : s.switchOk) : (takeSteps s).switchOk := by
  refine List.foldlRecOn (motive := State.switchOk) _ _ hs fun t ht r _ => ?_
  show (takeStep r t).switchOk
  unfold takeStep
  split
  · rw [makeStep_eq]
    refine reevaluateSwitch_switchOk _ (switchOk_of_sameBut (stepMarked_evolves _).same ?_ (by decide))
    exact switchOk_of_sameBut (stepCads_evolves _).same (switchOk_of_sameBut (stepTold_evolves _ t).same ht (by decide))
      (by decide)
  · exact ht

theorem tickAll_switchOk (inp : TickIn) {s : State} (hs : s.switchOk) : (tickAll inp s).switchOk := by
  rw [tickAll_eq]
  refine switchOk_of_sameBut (tickEnd_sameBut inp _) (takeSteps_switchOk ?_) (by decide)
  refine switchOk_of_sameBut (setClock_evolves _ _).same (tickUnits_switchOk inp ?_) (by decide)
  exact switchOk_of_sameBut (tickCads_evolves _).same (switchOk_of_sameBut (tickCounters_evolves _ s).same hs (by decide))
    (by decide)

theorem lossAdvance_switchOk (n : Nat) (inp : TickIn) {s : State} (hs : s.switchOk) : (lossAdvance n inp s).switchOk := by
  refine switchOk_of_sameBut (setPrevTimes_evolves _ _ _).same (tickUnits_switchOk inp ?_) (by decide)
  refine switchOk_of_sameBut (tickCads_evolves _).same ?_ (by decide)
  refine switchOk_of_sameBut (tickCounters_evolves _ _).same ?_ (by decide)
  exact switchOk_of_sameBut (setClock_evolves s _).same hs (by decide)

theorem clockLoss_switchOk (n : Nat) (inp : TickIn) {s : State} (hs : s.switchOk) : (clockLoss n inp s).switchOk := by
  by_cases h : s.clock = .normal
  · rw [clockLoss_of_normal n inp h]
    refine switchOk_of_sameBut (tickEnd_sameBut inp _) ?_ (by decide)
    refine switchOk_of_sameBut (raise_evolves _ _).same ?_ (by decide)
    refine switchOk_of_sameBut (servoClockLoss_evolves _).same (reevaluateSwitch_switchOk _ ?_) (by decide)
    exact switchOk_of_sameBut (catchUpCads_evolves _).same (lossAdvance_switchOk n inp hs) (by decide)
  · rwa [clockLoss_of_backup n inp h]

theorem switchBankCore_switchOk (body : List Byte) {s : State} (hs : s.switchOk) :
    (switchBankCore body s).after.switchOk := by
  obtain h | ⟨q, -, hne, -, -, h⟩ | h := switchBankCore_after body s
  · rwa [h]
  · rw [h]
    intro q' hq'
    obtain rfl := Option.mem_some.mp hq'
    exact hne
  · rw [h]
    exact switchOk_of_none (settleTick_switch _)

theorem after_switchOk (c : Instr) {s : State} (hs : s.switchOk) : (c.after s).switchOk := by
  cases c with
  | coldReset => exact switchOk_of_none rfl
  | warmReset =>
    show (warmResetWhenDue s).switchOk
    unfold warmResetWhenDue
    split
    · exact switchOk_of_none (settleTick_switch _)
    · exact hs
  | tick inp =>
    rw [after_eq_of_exec (t := tickAll inp s) rfl]
    exact tickAll_switchOk inp hs
  | stepTick inp =>
    rw [after_eq_of_exec (t := stepTick inp s) rfl, stepTick]
    split
    · exact hs
    · exact tickAll_switchOk inp hs
  | clockLoss n inp =>
    rw [after_eq_of_exec (t := clockLoss n inp s) rfl]
    exact clockLoss_switchOk n inp hs
  | cadenceEdge n => exact cadenceEdge_switchOk n hs
  | oneshotFire n => exact oneshotFire_switchOk n hs
  | atTimeReached => exact atTimeReached_switchOk hs
  | switchBank =>
    exact serve_keeps (P := State.switchOk) (fun _ _ _ _ h => h)
      (fun _ _ h hs => switchOk_of_sameBut h.same hs (by decide)) (fun b t ht => switchBankCore_switchOk b ht) hs
  | _ => exact switchOk_of_sameBut (after_sameBut _ s) hs (by simp [Instr.changes])

/-! ### The capture lines -/

/-- `State.ringsOk` and `State.linesOk` for one line and its record. -/
structure CapLine.okFor (r : CapRec) (x : CapLine) : Prop where
  ring : x.ring.length ≤ 4
  full : x.st = .full → r.mode = .oneShot ∧ x.ring.length = 4
  room : r.mode = .oneShot ∧ x.st = .run → x.ring.length < 4
  idle : r.sel = .none → x.qual = .idle
  inside : r.window = 0 → x.inWindow = true

abbrev State.capsOk (s : State) : Prop := ∀ n : Fin 4, s.cap[n].okFor s.capRec[n]

theorem capsOk_iff (s : State) : s.capsOk ↔ s.ringsOk ∧ s.linesOk :=
  ⟨fun h => ⟨fun n => ⟨(h n).ring, (h n).full, (h n).room⟩, fun n => ⟨(h n).idle, (h n).inside⟩⟩,
    fun ⟨hr, hl⟩ n => by
      obtain ⟨hring, hfull, hroom⟩ := hr n
      obtain ⟨hidle, hin⟩ := hl n
      exact ⟨hring, hfull, hroom, hidle, hin⟩⟩

theorem capsOk_of_sameBut {F : List Field} {s t : State} (h : s.sameBut F t) (hs : s.capsOk)
    (hF : Field.cap ∉ F ∧ Field.capRec ∉ F) : t.capsOk := by
  obtain ⟨hc, hr⟩ := hF
  have hcap : t.cap = s.cap := h .cap hc
  have hrec : t.capRec = s.capRec := h .capRec hr
  rwa [State.capsOk, hcap, hrec]

theorem setCap_capsOk {s : State} {n : Fin 4} {x : CapLine} (hs : s.capsOk) (hx : x.okFor s.capRec[n]) :
    (s.setCap n x).capsOk := fun m => by
  rw [State.setCap_get, State.setCap_capRec]
  split
  · rename_i h
    rwa [h]
  · exact hs m

theorem raise_capsOk (e : Event) {s : State} (hs : s.capsOk) : (raise e s).capsOk :=
  capsOk_of_sameBut (raise_evolves e s).same hs (by decide)

theorem raiseIf_capsOk (c : Bool) (e : Event) {s : State} (hs : s.capsOk) : (raiseIf c e s).capsOk :=
  capsOk_of_sameBut (raiseIf_evolves c e s).same hs (by decide)

/-- A line in use whose qualifier takes another value. -/
theorem CapLine.okFor.requalified {r : CapRec} {x : CapLine} (h : x.okFor r) (hq : x.qual ≠ .idle) (q : Qualifier) (b : Bool) :
    CapLine.okFor r { x with qual := q, sample := b } :=
  ⟨h.ring, h.full, h.room, fun hs => absurd (h.idle hs) hq, h.inside⟩

theorem captureInputChange_capsOk (n : Fin 4) {s : State} (hs : s.capsOk) : (captureInputChange n s).capsOk := by
  unfold captureInputChange
  dsimp only
  split
  · rename_i hq
    split
    · exact setCap_capsOk hs ((hs n).requalified (by rw [hq]; nofun) _ _)
    · exact hs
  · rename_i hq
    split
    · exact setCap_capsOk hs ((hs n).requalified (by rw [hq]; nofun) _ _)
    · exact hs
  · exact hs

theorem storeStamp_capsOk (n : Fin 4) (st : CapStamp) {s : State} (hs : s.capsOk) : (storeStamp n st s).capsOk := by
  have hn := hs n
  have hlen : (pushNewest 4 st s.cap[n].ring).length = min 4 (s.cap[n].ring.length + 1) := pushNewest_length _ _ _
  unfold storeStamp
  dsimp only
  split
  · exact hs
  · rename_i hst hmode
    exact raiseIf_capsOk _ _ (setCap_capsOk hs
      ⟨hlen.trans_le (Nat.min_le_left _ _), fun h => (nomatch hst.symm.trans h), fun h => (nomatch hmode.symm.trans h.1),
        hn.idle, hn.inside⟩)
  · rename_i hst hmode
    have hroom := hn.room ⟨hmode, hst⟩
    split
    · rename_i hfull
      refine raise_capsOk _ (setCap_capsOk hs ⟨hlen.trans_le (Nat.min_le_left _ _), fun _ => ⟨hmode, ?_⟩, fun h => (nomatch h.2),
        hn.idle, hn.inside⟩)
      dsimp only
      omega
    · rename_i hfull
      refine setCap_capsOk hs ⟨hlen.trans_le (Nat.min_le_left _ _), fun h => (nomatch hst.symm.trans h), fun _ => ?_, hn.idle,
        hn.inside⟩
      dsimp only
      omega

theorem phaseResult_capsOk (n : Fin 4) (e : Int) {s : State} (hs : s.capsOk) : (phaseResult n e s).capsOk := by
  have hn := hs n
  unfold phaseResult
  dsimp only
  split
  · exact setCap_capsOk hs ⟨hn.ring, hn.full, hn.room, hn.idle, hn.inside⟩
  · rename_i hw
    exact raiseIf_capsOk _ _ (setCap_capsOk hs ⟨hn.ring, hn.full, hn.room, hn.idle, fun h => absurd h hw⟩)

theorem captureAccept_capsOk (n : Fin 4) {s : State} (hs : s.capsOk) : (captureAccept n s).capsOk := by
  unfold captureAccept
  dsimp only
  split
  · rename_i c hq
    have hlive : (s.setCap n { s.cap[n] with qual := .live c.level none }).capsOk :=
      setCap_capsOk hs ((hs n).requalified (by rw [hq]; nofun) _ _)
    split
    · split
      · unfold comparePhase
        split
        · exact storeStamp_capsOk n _ hlive
        · split
          · exact storeStamp_capsOk n _ hlive
          · exact phaseResult_capsOk n _ (storeStamp_capsOk n _ hlive)
      · exact hlive
    · exact hs
  · exact hs

theorem CapLine.okFor.ticked {r : CapRec} {x : CapLine} (h : x.okFor r) (level : Bool) : (x.tick r level).okFor r := by
  unfold CapLine.tick
  split
  · exact h
  · rename_i hsel
    exact ⟨h.ring, h.full, h.room, fun h => absurd h hsel, h.inside⟩

theorem CapLine.okFor.stepped {r : CapRec} {x : CapLine} (h : x.okFor r) : x.stepNotice.okFor r := by
  have hlen : (x.ring.map CapStamp.mark).length = x.ring.length := List.length_map _
  refine ⟨hlen.trans_le h.ring, fun hf => ?_, fun hr => hlen.trans_lt (h.room hr), fun hs => ?_, h.inside⟩
  · obtain ⟨hm, hl⟩ := h.full hf
    exact ⟨hm, hlen.trans hl⟩
  · show x.qual.mark = .idle
    rw [h.idle hs]
    rfl

theorem CapLine.okFor.emptied {r : CapRec} {x : CapLine} (hring : x.ring = []) (hst : x.st = .run)
    (hidle : r.sel = .none → x.qual = .idle) (hin : r.window = 0 → x.inWindow = true) : x.okFor r := by
  refine ⟨by simp [hring], fun h => ?_, fun _ => by simp [hring], hidle, hin⟩
  rw [hst] at h
  cases h

theorem seedFor_idle {sel : EdgeSel} (h : sel = .none) : seedFor sel = .idle := if_pos h

theorem CapLine.okFor.reconfigured {old : CapRec} {x : CapLine} (h : x.okFor old) (new : CapRec) :
    (x.reconfigure old new).okFor new := by
  have hidle : new.sel = .none → (x.reconfigure old new).qual = .idle := fun hs => by
    show (if _ then _ else _) = _
    split
    · exact seedFor_idle hs
    · rename_i hsame
      simp only [not_or, not_not] at hsame
      exact h.idle (hsame.1.trans hs)
  have hin : new.window = 0 → (x.reconfigure old new).inWindow = true := fun hw => by
    show (if _ then _ else _) = _
    split
    · rfl
    · rename_i hsame
      simp only [not_or, not_not] at hsame
      exact h.inside (hsame.2.trans hw)
  by_cases hm : old.mode = new.mode
  · have hring : (x.reconfigure old new).ring = x.ring := if_neg (not_not.mpr hm)
    have hst : (x.reconfigure old new).st = x.st := if_neg (not_not.mpr hm)
    refine ⟨?_, ?_, ?_, hidle, hin⟩
    · rw [hring]
      exact h.ring
    · rw [hring, hst, ← hm]
      exact h.full
    · rw [hring, hst, ← hm]
      exact h.room
  · exact .emptied (if_pos hm) (if_pos hm) hidle hin

theorem tickUnits_capsOk (inp : TickIn) {s : State} (hs : s.capsOk) : (tickUnits inp s).capsOk := fun n => by
  show ((mapCap (fun n x => x.tick s.capRec[n] inp.cap[n]) s.cap)[n]).okFor s.capRec[n]
  rw [mapCap_get]
  exact (hs n).ticked _

theorem stepMarked_capsOk {s : State} (hs : s.capsOk) : (stepMarked s).capsOk := fun n => by
  show ((mapCap (fun _ x => x.stepNotice) s.cap)[n]).okFor s.capRec[n]
  rw [mapCap_get]
  exact (hs n).stepped

theorem takeSteps_capsOk {s : State} (hs : s.capsOk) : (takeSteps s).capsOk := by
  refine List.foldlRecOn (motive := State.capsOk) _ _ hs fun t ht r _ => ?_
  show (takeStep r t).capsOk
  unfold takeStep
  split
  · rw [makeStep_eq]
    refine capsOk_of_sameBut (reevaluateSwitch_evolves _ _).same (stepMarked_capsOk ?_) (by decide)
    exact capsOk_of_sameBut (stepCads_evolves _).same (capsOk_of_sameBut (stepTold_evolves _ t).same ht (by decide))
      (by decide)
  · exact ht

theorem tickAll_capsOk (inp : TickIn) {s : State} (hs : s.capsOk) : (tickAll inp s).capsOk := by
  rw [tickAll_eq]
  refine capsOk_of_sameBut (tickEnd_sameBut inp _) (takeSteps_capsOk ?_) (by decide)
  refine capsOk_of_sameBut (setClock_evolves _ _).same (tickUnits_capsOk inp ?_) (by decide)
  exact capsOk_of_sameBut (tickCads_evolves _).same (capsOk_of_sameBut (tickCounters_evolves _ s).same hs (by decide))
    (by decide)

theorem clockLoss_capsOk (n : Nat) (inp : TickIn) {s : State} (hs : s.capsOk) : (clockLoss n inp s).capsOk := by
  by_cases h : s.clock = .normal
  · rw [clockLoss_of_normal n inp h]
    refine capsOk_of_sameBut (tickEnd_sameBut inp _) (raise_capsOk _ ?_) (by decide)
    refine capsOk_of_sameBut (servoClockLoss_evolves _).same ?_ (by decide)
    refine capsOk_of_sameBut (reevaluateSwitch_evolves _ _).same ?_ (by decide)
    refine capsOk_of_sameBut (catchUpCads_evolves _).same ?_ (by decide)
    refine capsOk_of_sameBut (setPrevTimes_evolves _ _ _).same (tickUnits_capsOk inp ?_) (by decide)
    refine capsOk_of_sameBut (tickCads_evolves _).same ?_ (by decide)
    refine capsOk_of_sameBut (tickCounters_evolves _ _).same ?_ (by decide)
    exact capsOk_of_sameBut (setClock_evolves s _).same hs (by decide)
  · rwa [clockLoss_of_backup n inp h]

theorem warmReset_capsOk (s : State) : (warmReset s).capsOk := fun n => by
  show ((mapCap (fun n x => x.warmReset s.capRec[n]) s.cap)[n]).okFor s.capRec[n]
  rw [mapCap_get]
  exact .emptied rfl rfl (fun h => seedFor_idle h) fun _ => rfl

theorem writeEntry_capsOk {t : TableId} {i : Nat} {b : List Byte} {s u : State} {c : Bool} (hs : s.capsOk)
    (h : writeEntry t i b s = .applied c u) : u.capsOk := by
  obtain ⟨n, e, -, rfl⟩ | ⟨-, -, -, rfl⟩ | ⟨cfg, -, rfl⟩ | rfl | ⟨k, n, r, -, -, rfl⟩ | ⟨k, n, r, -, rfl⟩ |
    ⟨k, m, r, -, rfl⟩ | ⟨n, r, -, rfl⟩ | ⟨g, r, -, rfl⟩ | ⟨n, rfl⟩ := writeEntry_applied h
  · exact hs
  · exact capsOk_of_sameBut (s.setPort_sameBut _ _) hs (by decide)
  · exact capsOk_of_sameBut (applyServo_evolves cfg s).same hs (by decide)
  · exact hs
  · exact capsOk_of_sameBut (storeCad_evolves k n r s).same hs (by decide)
  · exact hs
  · exact capsOk_of_sameBut (storeLabel_evolves k m r s).same hs (by decide)
  · intro m
    have hcap : (State.setCap { s with capRec := s.capRec.set n.val r } n (s.cap[n].reconfigure s.capRec[n] r)).cap[m] =
        if m = n then s.cap[n].reconfigure s.capRec[n] r else s.cap[m] := State.setCap_get _ _ _ _
    have hrec : (s.capRec.set n.val r)[m] = if m = n then r else s.capRec[m] := vector_set_get _ _ _ _
    rw [hcap, State.setCap_capRec, hrec]
    split
    · exact (hs n).reconfigured r
    · exact hs m
  · exact hs
  · exact hs

theorem serve_capsOk {c : Command} {core : List Byte → State → Reply}
    (hcore : ∀ (b : List Byte) (s : State), s.capsOk → (core b s).after.capsOk) {s : State} (hs : s.capsOk) :
    (serve c core s).capsOk :=
  serve_keeps (P := State.capsOk) (fun _ _ _ _ h => h) (fun _ _ h hs => capsOk_of_sameBut h.same hs (by decide)) hcore hs

theorem readCaptureCore_capsOk (b : List Byte) {s : State} (hs : s.capsOk) : (readCaptureCore b s).after.capsOk := by
  obtain h | ⟨n, h⟩ := readCaptureCore_after b s
  · rwa [h]
  · rw [h]
    exact setCap_capsOk hs (.emptied rfl rfl (hs n).idle (hs n).inside)

theorem after_capsOk (c : Instr) {s : State} (hs : s.capsOk) : (c.after s).capsOk := by
  cases c with
  | coldReset => exact (capsOk_iff _).mpr (by decide : State.reset.ringsOk ∧ State.reset.linesOk)
  | warmReset =>
    show (warmResetWhenDue s).capsOk
    unfold warmResetWhenDue
    split
    · exact capsOk_of_sameBut (settleTick_evolves _).same (warmReset_capsOk _) (by decide)
    · exact hs
  | tick inp =>
    rw [after_eq_of_exec (t := tickAll inp s) rfl]
    exact tickAll_capsOk inp hs
  | stepTick inp =>
    rw [after_eq_of_exec (t := stepTick inp s) rfl, stepTick]
    split
    · exact hs
    · exact tickAll_capsOk inp hs
  | clockLoss n inp =>
    rw [after_eq_of_exec (t := clockLoss n inp s) rfl]
    exact clockLoss_capsOk n inp hs
  | captureInputChange n => exact captureInputChange_capsOk n hs
  | captureAccept n => exact captureAccept_capsOk n hs
  | writeTable => exact serve_capsOk (fun b t ht => writeTableCore_keeps writeEntry_capsOk b ht) hs
  | readCapture => exact serve_capsOk (fun b t ht => readCaptureCore_capsOk b ht) hs
  | _ => exact capsOk_of_sameBut (after_sameBut _ s) hs (by simp [Instr.changes])

/-! ### The outputs held back -/

/-- What `State.eventReached` goes by. -/
theorem cadReached_congr {s t : State} (hcad : t.cad = s.cad) (htime : t.time = s.time)
    (hrec : ∀ n, (t.cadRec n).policy = (s.cadRec n).policy) (htraced : t.servo.traced = s.servo.traced) :
    t.cadReached = s.cadReached := by
  funext n
  simp only [State.cadReached, heldBack, State.wouldMiss, hcad, hrec, htraced, atOrPast_congr htime]

theorem isReached_congr {s t : State} (htime : t.time = s.time) (q : SwitchReq) : q.isReached t = q.isReached s := by
  simp only [SwitchReq.isReached, atOrPast_congr htime]

theorem eventReached_congr {s t : State} (hcad : t.cad = s.cad) (htime : t.time = s.time)
    (hrec : ∀ n, (t.cadRec n).policy = (s.cadRec n).policy) (htraced : t.servo.traced = s.servo.traced)
    (hswitch : t.switch = s.switch) : t.eventReached = s.eventReached := by
  simp only [State.eventReached, cadReached_congr hcad htime hrec htraced, hswitch, isReached_congr htime]

theorem viewOk_of_none {s : State} (h : s.view = none) : s.viewOk := fun hv => by
  rw [h] at hv
  cases hv

/-- Whatever the state was, once settled it holds its outputs back only for an event still to be taken. -/
theorem settleTick_viewOk (s : State) : (settleTick s).viewOk := by
  obtain ⟨hv, h⟩ | ⟨_, _, he, h⟩ | ⟨v, _, _, h⟩ := settleTick_cases s
  · rw [h]
    exact viewOk_of_none hv
  · rw [h]
    exact fun _ => he
  · rw [h]
    exact viewOk_of_none rfl

theorem endEvent_viewOk (s t : State) : (endEvent s t).viewOk := settleTick_viewOk _

/-- The fields that a held-back output goes by, but for the traced flag. -/
abbrev viewFields : List Field := [.view, .cad, .time, .banks, .active, .switch]

theorem viewOk_of_traced {F : List Field} {s t : State} (h : s.sameBut F t) (htr : t.servo.traced = s.servo.traced)
    (hs : s.viewOk) (hF : ∀ f ∈ viewFields, f ∉ F) : t.viewOk := by
  have hview : t.view = s.view := h .view (hF _ (by decide))
  have hreached : t.eventReached = s.eventReached :=
    eventReached_congr (h .cad (hF _ (by decide))) (h .time (hF _ (by decide)))
      (fun n => by rw [cadRec_congr (h .banks (hF _ (by decide))) (h .active (hF _ (by decide)))]) htr
      (h .switch (hF _ (by decide)))
  rwa [State.viewOk, hview, hreached]

theorem viewOk_of_sameBut {F : List Field} {s t : State} (h : s.sameBut F t) (hs : s.viewOk)
    (hF : ∀ f ∈ Field.servo :: viewFields, f ∉ F) : t.viewOk := by
  have hservo : t.servo = s.servo := h .servo (hF _ (by decide))
  exact viewOk_of_traced h (by rw [hservo]) hs fun f hf => hF f (List.mem_cons_of_mem _ hf)

theorem viewOk_of_evolves {F : List Field} {s t : State} (h : s.evolves F t) (hs : s.viewOk)
    (hF : ∀ f ∈ Field.servo :: viewFields, f ∉ F) : t.viewOk := viewOk_of_sameBut h.same hs hF

theorem cadenceEdge_viewOk (n : Fin 8) {s : State} (hs : s.viewOk) : (cadenceEdge n s).viewOk := by
  unfold cadenceEdge
  dsimp only
  split
  · split
    · exact endEvent_viewOk _ _
    · exact hs
  · exact hs

theorem pulseEnd_viewOk (n : Fin 8) {s : State} (hs : s.viewOk) : (pulseEnd n s).viewOk := by
  unfold pulseEnd
  split
  · split
    · exact endEvent_viewOk _ _
    · exact hs
  · exact hs

theorem oneshotFire_viewOk (n : Fin 8) {s : State} (hs : s.viewOk) : (oneshotFire n s).viewOk := by
  unfold oneshotFire
  dsimp only
  split
  · split
    · exact hs
    · split
      · exact endEvent_viewOk _ _
      · split
        · exact hs
        · exact endEvent_viewOk _ _
  · exact hs

theorem atTimeReached_viewOk {s : State} (hs : s.viewOk) : (atTimeReached s).viewOk := by
  obtain h | ⟨q, at_, -, h⟩ := atTimeReached_cases s
  · rwa [h]
  · rw [h]
    exact endEvent_viewOk _ _

theorem tickAll_viewOk (inp : TickIn) (s : State) : (tickAll inp s).viewOk := settleTick_viewOk _

theorem clockLoss_viewOk (n : Nat) (inp : TickIn) {s : State} (hs : s.viewOk) : (clockLoss n inp s).viewOk := by
  by_cases h : s.clock = .normal
  · rw [clockLoss_of_normal n inp h]
    exact settleTick_viewOk _
  · rwa [clockLoss_of_backup n inp h]

theorem intakeNext_viewOk {s : State} (hs : s.viewOk) : (intakeNext s).viewOk := by
  obtain ⟨u, hu, ⟨h, htr⟩ | ⟨h, -⟩⟩ := intakeNext_mayStart s
  · rw [h]
    exact viewOk_of_traced hu.same htr hs (by decide)
  · rw [h]
    exact settleTick_viewOk _

theorem sourceTimeout_traced (i : Fin 8) (s : State) : (sourceTimeout i s).servo.traced = s.servo.traced := by
  unfold sourceTimeout
  dsimp only
  split
  · split
    · split
      · exact rerunSelection_traced _ _
      · rfl
    · rfl
  · rfl

theorem expireHoldover_traced (s : State) : (expireHoldover s).servo.traced = s.servo.traced := by
  unfold expireHoldover
  split
  · rw [raise_servo]
    rfl
  · rfl

theorem clockRestored_traced (s : State) : (clockRestored s).servo.traced = s.servo.traced := by
  unfold clockRestored
  dsimp only
  split
  · split
    · split
      · rw [enterAcquire_servo, raise_servo]
        rfl
      · rw [raise_servo]
    · rfl
  · rfl

theorem applyServo_traced (cfg : ServoCfg) (s : State) : (applyServo cfg s).servo.traced = s.servo.traced := by
  have hite : ∀ {t u : State} (c : Prop) [Decidable c], t.servo.traced = s.servo.traced →
      u.servo.traced = t.servo.traced → (if c then t else u).servo.traced = s.servo.traced := fun c _ ht hu => by
    split
    · exact ht
    · exact hu.trans ht
  unfold applyServo
  dsimp only
  refine hite _ (hite _ (hite _ (?_ : Servo.traced (State.servo (State.mk ..)) = _) (rerunSelection_traced _ _))
    ((expireSchedule_evolves _).traced_eq (by decide))) (expireHoldover_traced _)
  dsimp only
  split <;> rfl

theorem setTrimCore_traced (body : List Byte) (s : State) :
    (setTrimCore body s).after.servo.traced = s.servo.traced := by
  obtain h | ⟨-, h⟩ := setTrimCore_after body s <;> rw [h]

/-- A request for a switch takes no event away. -/
theorem switchBankCore_viewOk (body : List Byte) {s : State} (hs : s.viewOk) :
    (switchBankCore body s).after.viewOk := by
  obtain h | ⟨q, hnone, -, -, -, h⟩ | h := switchBankCore_after body s
  · rwa [h]
  · rw [h]
    intro hv
    have hreached : s.eventReached = true := hs hv
    have hcads : allCad.any s.cadReached = true := by
      simpa only [State.eventReached, hnone, Option.any_none, Bool.or_false] using hreached
    have hcongr : State.cadReached { s with switch := some q } = s.cadReached :=
      cadReached_congr rfl rfl (fun _ => rfl) rfl
    simp only [State.eventReached, hcongr, hcads, Bool.true_or]
  · rw [h]
    exact settleTick_viewOk _

theorem storeCad_viewOk (k : Fin 4) (n : Fin 8) (r : CadRec) {s : State} (hs : s.viewOk) : (storeCad k n r s).viewOk := by
  unfold storeCad
  dsimp only
  split
  · exact endEvent_viewOk _ _
  · rename_i h
    have hrec : ∀ m, (s.setCadRec k n r).cadRec m = s.cadRec m := fun m => by
      have hget : (s.setCadRec k n r).cadRec m = if s.active = k ∧ m = n then r else s.cadRec m :=
        State.setCadRec_get s k n r s.active m
      rw [hget]
      split
      · rename_i hm
        obtain ⟨rfl, rfl⟩ := hm
        by_contra hne
        exact h ⟨rfl, fun heq => hne heq.symm⟩
      · rfl
    have hreached : (s.setCadRec k n r).eventReached = s.eventReached :=
      eventReached_congr rfl rfl (fun m => by rw [hrec]) rfl rfl
    intro hv
    rw [hreached]
    exact hs hv

/-- Records of the banks replaced, those of the cadences as they were. -/
theorem viewOk_of_records {F : List Field} {s t : State} (h : s.sameBut F t) (hs : s.viewOk)
    (hrec : ∀ j : Fin 4, t.banks[j].cad = s.banks[j].cad)
    (hF : ∀ f ∈ [Field.view, .cad, .time, .servo, .active, .switch], f ∉ F) : t.viewOk := by
  have hview : t.view = s.view := h .view (hF _ (by decide))
  have hactive : t.active = s.active := h .active (hF _ (by decide))
  have hservo : t.servo = s.servo := h .servo (hF _ (by decide))
  have hreached : t.eventReached = s.eventReached :=
    eventReached_congr (h .cad (hF _ (by decide))) (h .time (hF _ (by decide)))
      (fun n => by simp only [State.cadRec, State.bank, hactive, hrec]) (by rw [hservo]) (h .switch (hF _ (by decide)))
  rwa [State.viewOk, hview, hreached]

theorem writeEntry_viewOk {t : TableId} {i : Nat} {b : List Byte} {s u : State} {c : Bool} (hs : s.viewOk)
    (h : writeEntry t i b s = .applied c u) : u.viewOk := by
  obtain ⟨n, e, -, rfl⟩ | ⟨-, -, -, rfl⟩ | ⟨cfg, -, rfl⟩ | rfl | ⟨k, n, r, -, -, rfl⟩ | ⟨k, n, r, -, rfl⟩ |
    ⟨k, m, r, -, rfl⟩ | ⟨n, r, -, rfl⟩ | ⟨g, r, -, rfl⟩ | ⟨n, rfl⟩ := writeEntry_applied h
  · exact hs
  · exact viewOk_of_sameBut (s.setPort_sameBut _ _) hs (by decide)
  · exact viewOk_of_traced (applyServo_evolves cfg s).same (applyServo_traced cfg s) hs (by decide)
  · exact hs
  · exact storeCad_viewOk k n r hs
  · exact viewOk_of_records (setBanks_evolves s _).same hs (setRoute_cad s k n r) (by decide)
  · exact viewOk_of_records (storeLabel_evolves k m r s).same hs (storeLabel_cad k m r s) (by decide)
  · exact viewOk_of_sameBut (F := [.capRec, .cap]) (fun f hf => by cases f <;> simp at hf <;> rfl) hs (by decide)
  · exact hs
  · exact hs

theorem serve_viewOk {c : Command} {core : List Byte → State → Reply}
    (hcore : ∀ (b : List Byte) (s : State), s.viewOk → (core b s).after.viewOk) {s : State} (hs : s.viewOk) :
    (serve c core s).viewOk :=
  serve_keeps (P := State.viewOk) (fun _ _ _ _ h => h) (fun _ _ h hs => viewOk_of_evolves h hs (by decide)) hcore hs

theorem armCore_viewOk (b : List Byte) {s : State} (hs : s.viewOk) : (armCore b s).after.viewOk := by
  obtain h | ⟨n, k, -, -, -, h⟩ := armCore_after b s
  · rwa [h]
  · rw [h]
    exact settleTick_viewOk _

theorem disarmCore_viewOk (b : List Byte) {s : State} (hs : s.viewOk) : (disarmCore b s).after.viewOk := by
  obtain h | ⟨n, -, h⟩ := disarmCore_after b s
  · rwa [h]
  · rw [h]
    exact settleTick_viewOk _

theorem after_viewOk (c : Instr) {s : State} (hs : s.viewOk) : (c.after s).viewOk := by
  cases c with
  | coldReset => exact viewOk_of_none rfl
  | warmReset =>
    show (warmResetWhenDue s).viewOk
    unfold warmResetWhenDue
    split
    · exact settleTick_viewOk _
    · exact hs
  | timingCopyIntake => exact intakeNext_viewOk hs
  | sourceTimeout i => exact viewOk_of_traced (sourceTimeout_evolves i s).same (sourceTimeout_traced i s) hs (by decide)
  | holdoverExpired => exact viewOk_of_traced (expireHoldover_evolves s).same (expireHoldover_traced s) hs (by decide)
  | clockRestored => exact viewOk_of_traced (clockRestored_evolves s).same (clockRestored_traced s) hs (by decide)
  | tick inp =>
    rw [after_eq_of_exec (t := tickAll inp s) rfl]
    exact tickAll_viewOk inp s
  | stepTick inp =>
    rw [after_eq_of_exec (t := stepTick inp s) rfl, stepTick]
    split
    · exact hs
    · exact tickAll_viewOk inp s
  | clockLoss n inp =>
    rw [after_eq_of_exec (t := clockLoss n inp s) rfl]
    exact clockLoss_viewOk n inp hs
  | cadenceEdge n => exact cadenceEdge_viewOk n hs
  | pulseEnd n => exact pulseEnd_viewOk n hs
  | oneshotFire n => exact oneshotFire_viewOk n hs
  | atTimeReached => exact atTimeReached_viewOk hs
  | writeTable => exact serve_viewOk (fun b t ht => writeTableCore_keeps writeEntry_viewOk b ht) hs
  | switchBank => exact serve_viewOk (fun b t ht => switchBankCore_viewOk b ht) hs
  | setTrim =>
    exact serve_viewOk (fun b t ht => viewOk_of_traced (setTrimCore_evolves b t).same (setTrimCore_traced b t) ht (by decide)) hs
  | armOneshot => exact serve_viewOk (fun b t ht => armCore_viewOk b ht) hs
  | disarmOneshot => exact serve_viewOk (fun b t ht => disarmCore_viewOk b ht) hs
  | _ => exact viewOk_of_sameBut (after_sameBut _ s) hs (by simp [Instr.changes])

/-- Settles O10: the switch by the operations that make it, the lines one by one, and the view by the settling that ends
every operation that can take an event away. -/
theorem switchAndLinesStayLegal : Obligations.SwitchAndLinesStayLegal := by
  refine ⟨fun s t ⟨hswitch, hrings, hlines⟩ h => ?_, fun s t hs h =>
    step_keeps (P := State.viewOk) (fun _ _ h => h) (fun c _ h => after_viewOk c h) hs h⟩
  have hcaps : t.capsOk :=
    step_keeps (P := State.capsOk) (fun _ _ h => h) (fun c _ h => after_capsOk c h) ((capsOk_iff s).mpr ⟨hrings, hlines⟩) h
  exact ⟨step_keeps (P := State.switchOk) (fun _ _ h => h) (fun c _ h => after_switchOk c h) hswitch h, (capsOk_iff t).mp hcaps⟩

end Sys2Proof.Machine
end

section
/-!
PROOFS. The tables a manager writes (R32, R54, R77, R101, R158, R164, R177, R201, R207), the groups' flag (R204), the
clock's count (R115), and the state after a cold reset.
-/

namespace Sys2Proof.Machine

/-! ### Classification entries -/

theorem decodeClass_legal {b : List Byte} {e : ClassEntry} (h : decodeClass b = some e) :
    (e.valid = true ∧ e.legal = true ∧ ∀ d ∈ e.domain, d.toNat < 128) ∨ e = ClassEntry.empty := by
  unfold decodeClass at h
  dsimp only at h
  split at h
  · exact .inr (Option.some.inj h).symm
  · split at h
    · cases h
    · split at h
      · cases h
      · rename_i hdom
        split at h
        · split at h
          · rename_i hlegal
            obtain rfl := Option.some.inj h
            refine .inl ⟨rfl, hlegal, fun d hd => ?_⟩
            simp only [present] at hd
            split at hd
            · rename_i hp
              obtain rfl := Option.mem_some.mp hd
              exact not_le.mp fun hle => hdom ⟨hp, hle⟩
            · cases hd
          · cases h
        · cases h

theorem classifyOk_of_sameBut {F : List Field} {s t : State} (h : s.sameBut F t) (hs : s.classifyOk)
    (hF : Field.classify ∉ F) : t.classifyOk := by
  have hc : t.classify = s.classify := h .classify hF
  rwa [State.classifyOk, hc]

/-! ### The other tables -/

/-- The parts of `State.smallRecordsOk`. -/
abbrev LabelCfg.ok (c : LabelCfg) : Prop := c.delay ≤ 65535 ∧ 2 ≤ c.period ∧ c.period ≤ 65535

theorem decodeLabel_ok {b : List Byte} {c : LabelCfg} (h : decodeLabel b = some c) : c.ok := by
  have hd := fieldAt_lt b 2 2
  have hp := fieldAt_lt b 4 2
  unfold decodeLabel at h
  split at h
  · split at h
    · cases h
    · rename_i hmin
      obtain rfl := Option.some.inj h
      exact ⟨Nat.le_of_lt_succ hd, not_lt.mp hmin, Nat.le_of_lt_succ hp⟩
  · cases h

theorem decodeCapture_qual {b : List Byte} {r : CapRec} (h : decodeCapture b = some r) : r.qual ≤ 255 := by
  unfold decodeCapture at h
  split at h
  · obtain rfl := Option.some.inj h
    exact Nat.le_of_lt_succ (byteAt b 1).isLt
  · cases h

theorem decodeNotify_holdoff {b : List Byte} {r : NotifyCfg} (h : decodeNotify b = some r) : r.holdoff ≤ 65535 := by
  obtain ⟨p, -, rfl⟩ := Option.map_eq_some_iff.mp h
  exact Nat.le_of_lt_succ (fieldAt_lt b 8 2)

theorem smallRecordsOk_of_sameBut {F : List Field} {s t : State} (h : s.sameBut F t) (hs : s.smallRecordsOk)
    (hF : ∀ f ∈ [Field.banks, .capRec, .notifyCfg, .civil], f ∉ F) : t.smallRecordsOk := by
  have hb : t.banks = s.banks := h .banks (hF _ (by decide))
  have hc : t.capRec = s.capRec := h .capRec (hF _ (by decide))
  have hn : t.notifyCfg = s.notifyCfg := h .notifyCfg (hF _ (by decide))
  have hv : t.civil = s.civil := h .civil (hF _ (by decide))
  rwa [State.smallRecordsOk, hb, hc, hn, hv]

theorem storeCad_labels (k : Fin 4) (n : Fin 8) (r : CadRec) (s : State) (j : Fin 4) :
    (storeCad k n r s).banks[j].labels = s.banks[j].labels := by
  rw [storeCad_banks]
  have hbank : (s.setCadRec k n r).banks[j] = if j = k then { s.banks[k] with cad := s.banks[k].cad.set n r } else s.banks[j] :=
    vector_set_get _ _ _ _
  rw [hbank]
  split
  · rename_i h
    rw [h]
  · rfl

theorem setRoute_labels (s : State) (k : Fin 4) (i : Fin 12) (r : Route) (j : Fin 4) :
    (s.setRoute k i r).banks[j].labels = s.banks[j].labels := by
  have hbank : (s.setRoute k i r).banks[j] = if j = k then { s.banks[k] with lines := s.banks[k].lines.set i r } else s.banks[j] :=
    vector_set_get _ _ _ _
  rw [hbank]
  split
  · rename_i h
    rw [h]
  · rfl

theorem storeLabel_banks (k : Fin 4) (m : Fin 2) (c : LabelCfg) (s : State) :
    (storeLabel k m c s).banks = (s.setLabel k m c).banks := by
  unfold storeLabel
  dsimp only
  split <;> rfl

theorem State.setLabel_get (s : State) (k : Fin 4) (m : Fin 2) (c : LabelCfg) (j : Fin 4) (i : Fin 2) :
    (s.setLabel k m c).banks[j].labels[i] = if j = k ∧ i = m then c else s.banks[j].labels[i] := by
  have hbank : (s.setLabel k m c).banks[j] =
      if j = k then { s.banks[k] with labels := s.banks[k].labels.set m c } else s.banks[j] := vector_set_get _ _ _ _
  rw [hbank]
  by_cases hj : j = k
  · rw [if_pos hj, hj]
    simp only [true_and]
    exact vector_set_get _ _ _ _
  · rw [if_neg hj, if_neg fun h => hj h.1]

theorem writeEntry_classifyOk {t : TableId} {i : Nat} {b : List Byte} {s u : State} {c : Bool} (hs : s.classifyOk)
    (h : writeEntry t i b s = .applied c u) : u.classifyOk := by
  obtain ⟨n, e, he, rfl⟩ | ⟨-, -, -, rfl⟩ | ⟨cfg, -, rfl⟩ | rfl | ⟨k, n, r, -, -, rfl⟩ | ⟨k, n, r, -, rfl⟩ |
    ⟨k, m, r, -, rfl⟩ | ⟨n, r, -, rfl⟩ | ⟨g, r, -, rfl⟩ | ⟨n, rfl⟩ := writeEntry_applied h
  · intro j
    have hget : (s.classify.set n.val e)[j] = if j = n then e else s.classify[j] := vector_set_get _ _ _ _
    show ((s.classify.set n.val e)[j].valid = true ∧ _) ∨ (s.classify.set n.val e)[j] = _
    rw [hget]
    split
    · exact decodeClass_legal he
    · exact hs j
  · exact classifyOk_of_sameBut (s.setPort_sameBut _ _) hs (by decide)
  · exact classifyOk_of_sameBut (applyServo_evolves cfg s).same hs (by decide)
  · exact hs
  · exact classifyOk_of_sameBut (storeCad_evolves k n r s).same hs (by decide)
  · exact hs
  · exact classifyOk_of_sameBut (storeLabel_evolves k m r s).same hs (by decide)
  · exact hs
  · exact hs
  · exact hs

theorem writeEntry_smallRecordsOk {t : TableId} {i : Nat} {b : List Byte} {s u : State} {c : Bool}
    (hs : s.smallRecordsOk) (h : writeEntry t i b s = .applied c u) : u.smallRecordsOk := by
  obtain ⟨hlab, hcap, hnot, hciv⟩ := hs
  obtain ⟨n, e, -, rfl⟩ | ⟨-, -, -, rfl⟩ | ⟨cfg, -, rfl⟩ | rfl | ⟨k, n, r, -, -, rfl⟩ | ⟨k, n, r, -, rfl⟩ |
    ⟨k, m, r, hr, rfl⟩ | ⟨n, r, hr, rfl⟩ | ⟨g, r, hr, rfl⟩ | ⟨n, rfl⟩ := writeEntry_applied h
  · exact ⟨hlab, hcap, hnot, hciv⟩
  · exact smallRecordsOk_of_sameBut (s.setPort_sameBut _ _) ⟨hlab, hcap, hnot, hciv⟩ (by decide)
  · exact smallRecordsOk_of_sameBut (applyServo_evolves cfg s).same ⟨hlab, hcap, hnot, hciv⟩ (by decide)
  · obtain ⟨hlo, hhi⟩ := signedOf_range 16 (fieldAt b 0 2) (by decide) (fieldAt_lt b 0 2)
    exact ⟨hlab, hcap, hnot, by simpa using hlo, Int.le_of_lt_add_one (by simpa using hhi)⟩
  · have hsame := (storeCad_evolves k n r s).same
    refine ⟨fun j m => ?_, ?_, ?_, ?_⟩
    · rw [storeCad_labels]
      exact hlab j m
    · rwa [show (storeCad k n r s).capRec = s.capRec from hsame .capRec (by decide)]
    · rwa [show (storeCad k n r s).notifyCfg = s.notifyCfg from hsame .notifyCfg (by decide)]
    · rwa [show (storeCad k n r s).civil = s.civil from hsame .civil (by decide)]
  · refine ⟨fun j m => ?_, hcap, hnot, hciv⟩
    rw [setRoute_labels]
    exact hlab j m
  · have hsame := (storeLabel_evolves k m r s).same
    refine ⟨fun j i => ?_, ?_, ?_, ?_⟩
    · have hok : ((s.setLabel k m r).banks[j].labels[i]).ok := by
        rw [State.setLabel_get]
        split
        · exact decodeLabel_ok hr
        · exact hlab j i
      rw [storeLabel_banks]
      exact hok
    · rwa [show (storeLabel k m r s).capRec = s.capRec from hsame .capRec (by decide)]
    · rwa [show (storeLabel k m r s).notifyCfg = s.notifyCfg from hsame .notifyCfg (by decide)]
    · rwa [show (storeLabel k m r s).civil = s.civil from hsame .civil (by decide)]
  · refine ⟨hlab, fun j => ?_, hnot, hciv⟩
    show (s.capRec.set n.val r)[j].qual ≤ 255
    have hget : (s.capRec.set n.val r)[j] = if j = n then r else s.capRec[j] := vector_set_get _ _ _ _
    rw [hget]
    split
    · exact decodeCapture_qual hr
    · exact hcap j
  · refine ⟨hlab, hcap, fun j => ?_, hciv⟩
    show (s.notifyCfg.set g.val r)[j].holdoff ≤ 65535
    have hget : (s.notifyCfg.set g.val r)[j] = if j = g then r else s.notifyCfg[j] := vector_set_get _ _ _ _
    rw [hget]
    split
    · exact decodeNotify_holdoff hr
    · exact hnot j
  · exact ⟨hlab, hcap, hnot, hciv⟩

theorem after_classifyOk (c : Instr) {s : State} (hs : s.classifyOk) : (c.after s).classifyOk := by
  cases c with
  | coldReset => exact fun j => .inr (by show (Vector.replicate 32 ClassEntry.empty)[j] = _; simp)
  | writeTable =>
    exact serve_keeps (P := State.classifyOk) (fun _ _ _ _ h => h)
      (fun _ _ h hs => classifyOk_of_sameBut h.same hs (by decide))
      (fun b _ ht => writeTableCore_keeps writeEntry_classifyOk b ht) hs
  | _ => exact classifyOk_of_sameBut (after_sameBut _ s) hs (by simp [Instr.changes])

theorem reset_smallRecordsOk : State.reset.smallRecordsOk := by decide +kernel

theorem after_smallRecordsOk (c : Instr) {s : State} (hs : s.smallRecordsOk) : (c.after s).smallRecordsOk := by
  cases c with
  | coldReset => exact reset_smallRecordsOk
  | writeTable =>
    exact serve_keeps (P := State.smallRecordsOk) (fun _ _ _ _ h => h)
      (fun _ _ h hs => smallRecordsOk_of_sameBut h.same hs (by decide))
      (fun b _ ht => writeTableCore_keeps writeEntry_smallRecordsOk b ht) hs
  | _ => exact smallRecordsOk_of_sameBut (after_sameBut _ s) hs (by simp [Instr.changes])

theorem servoLegal_closed : ServoClosed fun c _ => c.legal where
  reset := by decide
  warmReset := id
  acquired := fun _ h => h
  freed := fun h _ => h
  heldOver := fun _ _ h => h
  sampled := fun _ h _ => h
  outlier := fun h _ _ => h
  clockLost := id
  trimmed := fun _ h => h
  limited := fun _ h => decodeServo_legal h

/-! ### The groups -/

/-- What leaves the groups as they were. -/
theorem groupsOk_of_eq {s t : State} (h : t.groups = s.groups) (hs : s.groupsOk) : t.groupsOk := by
  rwa [State.groupsOk, h]

theorem makeResetDue_groups (c : Bool) (s : State) : (makeResetDue c s).groups = s.groups := by
  cases c <;> rfl

theorem endSending_groups (s : State) (p : Port) : (s.endSending p).groups = s.groups := by
  cases p <;> rfl

theorem linkUp_groups (p : Port) (s : State) : (linkUp p s).groups = s.groups := by
  unfold linkUp
  split
  · rfl
  · rw [State.setPort_groups]

theorem linkDown_groups (p : Port) (s : State) : (linkDown p s).groups = s.groups := by
  unfold linkDown
  dsimp only
  split
  · rfl
  · rw [makeResetDue_groups, State.setPort_groups, endSending_groups]

theorem frameReceived_groups (p : Port) (bytes : List Byte) (cut : Bool) (s : State) :
    (frameReceived p bytes cut s).groups = s.groups := by
  unfold frameReceived
  dsimp only
  split
  · split <;> rw [State.setPort_groups]
  · split
    · rw [State.setPort_groups]
    · rfl
  · rfl

theorem depart_groups (p : Port) (e : EgressEntry) (s : State) : (depart p e s).groups = s.groups := by
  unfold depart
  dsimp only
  rw [makeResetDue_groups]
  split
  · exact State.setPort_groups s p _
  · exact State.setPort_groups s p _

theorem transmitStart_groups (p : Port) (s : State) : (transmitStart p s).groups = s.groups := by
  unfold transmitStart
  dsimp only
  split
  · split
    · rw [depart_groups, State.setPort_groups]
    · rw [depart_groups, State.setPort_groups]
    · rfl
  · rfl

theorem transmitEnd_groups (p : Port) (s : State) : (transmitEnd p s).groups = s.groups := by
  unfold transmitEnd
  split
  · split
    · rfl
    · exact endSending_groups s p
  · rfl

theorem classifyNext_groupsOk (p : Port) {s : State} (hs : s.groupsOk) : (classifyNext p s).groupsOk := by
  unfold classifyNext
  split
  · exact hs
  · exact (applyDisposition_evolves _ _ _ _).groups (groupsOk_of_eq (State.setPort_groups _ _ _) hs)

theorem handOver_groupsOk (d : Departure) {s : State} (hs : s.groupsOk) : (handOver d s).groupsOk := by
  obtain ⟨ing, mark, -, h⟩ | ⟨seq, -, h⟩ | ⟨-, h⟩ := handOver_cases d s
  · rw [h]
    exact groupsOk_of_eq (State.setPort_groups _ _ _) ((consult_evolves _ _ _ _ _ s).groups hs)
  · rw [h]
    exact (probeDeparted_evolves _ _ s).groups hs
  · rwa [h]

theorem handOverThose_groupsOk (now : Departure → Bool) {s : State} (hs : s.groupsOk) : (handOverThose now s).groupsOk :=
  List.foldlRecOn (motive := State.groupsOk) _ _ hs fun _ ht d _ => handOver_groupsOk d ht

theorem tickEnd_groupsOk (inp : TickIn) {s : State} (hs : s.groupsOk) : (tickEnd inp s).groupsOk := by
  refine (tickOutputs_evolves _).groups (handOverThose_groupsOk _ ?_)
  exact groupsOk_of_eq (State.setPort_groups _ _ _) (groupsOk_of_eq (State.setPort_groups _ _ _) hs)

theorem tickAll_groupsOk (inp : TickIn) {s : State} (hs : s.groupsOk) : (tickAll inp s).groupsOk := by
  rw [tickAll_eq]
  exact tickEnd_groupsOk inp ((takeSteps_evolves _).groups ((tickStart_evolves inp s).groups hs))

theorem clockLoss_groupsOk (n : Nat) (inp : TickIn) {s : State} (hs : s.groupsOk) : (clockLoss n inp s).groupsOk := by
  by_cases h : s.clock = .normal
  · rw [clockLoss_of_normal n inp h]
    exact tickEnd_groupsOk inp ((raise_evolves _ _).groups ((servoClockLoss_evolves _).groups
      ((lossCaughtUp_evolves n inp s).groups hs)))
  · rwa [clockLoss_of_backup n inp h]

theorem writeEntry_groupsOk {t : TableId} {i : Nat} {b : List Byte} {s u : State} {c : Bool} (hs : s.groupsOk)
    (h : writeEntry t i b s = .applied c u) : u.groupsOk := by
  obtain ⟨n, e, -, rfl⟩ | ⟨-, -, -, rfl⟩ | ⟨cfg, -, rfl⟩ | rfl | ⟨k, n, r, -, -, rfl⟩ | ⟨k, n, r, -, rfl⟩ |
    ⟨k, m, r, -, rfl⟩ | ⟨n, r, -, rfl⟩ | ⟨g, r, -, rfl⟩ | ⟨n, rfl⟩ := writeEntry_applied h
  · exact hs
  · exact groupsOk_of_eq (State.setPort_groups _ _ _) hs
  · exact (applyServo_evolves cfg s).groups hs
  · exact hs
  · exact (storeCad_evolves k n r s).groups hs
  · exact hs
  · exact (storeLabel_evolves k m r s).groups hs
  · exact hs
  · exact hs
  · exact hs

theorem reset_groupsOk : State.reset.groupsOk := by decide

theorem after_groupsOk (c : Instr) {s : State} (hs : s.groupsOk) : (c.after s).groupsOk := by
  cases c with
  | coldReset => exact reset_groupsOk
  | warmReset =>
    show (warmResetWhenDue s).groupsOk
    unfold warmResetWhenDue
    split
    · exact (settleTick_evolves _).groups (groupsOk_of_eq (s := State.reset) rfl reset_groupsOk)
    · exact hs
  | linkUp p => exact groupsOk_of_eq (linkUp_groups p s) hs
  | linkDown p => exact groupsOk_of_eq (linkDown_groups p s) hs
  | frameReceived p bytes cut => exact groupsOk_of_eq (frameReceived_groups p bytes cut s) hs
  | classifyFrame p => exact classifyNext_groupsOk p hs
  | transmitStart p => exact groupsOk_of_eq (transmitStart_groups p s) hs
  | transmitEnd p => exact groupsOk_of_eq (transmitEnd_groups p s) hs
  | stepTick inp =>
    rw [after_eq_of_exec (t := stepTick inp s) rfl, stepTick]
    split
    · exact hs
    · exact tickAll_groupsOk inp hs
  | clockLoss n inp =>
    rw [after_eq_of_exec (t := clockLoss n inp s) rfl]
    exact clockLoss_groupsOk n inp hs
  | tick inp =>
    rw [after_eq_of_exec (t := tickAll inp s) rfl]
    exact tickAll_groupsOk inp hs
  | writeTable =>
    exact serve_keeps (P := State.groupsOk) (fun _ _ _ _ h => h) (fun _ _ h hs => h.groups hs)
      (fun b _ ht => writeTableCore_keeps writeEntry_groupsOk b ht) hs
  | _ => exact (after_evolves rfl s).groups hs

/-! ### The restore qualification -/

abbrev State.clockOk (s : State) : Prop := s.clock.countOk = true

theorem clockOk_of_sameBut {F : List Field} {s t : State} (h : s.sameBut F t) (hs : s.clockOk)
    (hF : Field.clock ∉ F) : t.clockOk := by
  have hc : t.clock = s.clock := h .clock hF
  rwa [State.clockOk, hc]

theorem clockTick_countOk (c : ClockState) (h : c.countOk = true) : c.tick.countOk = true := by
  cases c with
  | normal => rfl
  | backup q =>
    cases q with
    | none => rfl
    | some n => exact decide_eq_true (Nat.min_le_left restoreTicks (n + 1))

theorem tickUnits_clock (inp : TickIn) (t : State) : (tickUnits inp (tickCads t)).clock = t.clock := rfl

theorem tickStart_clock (inp : TickIn) (s : State) : (tickStart inp s).clock = s.clock.tick :=
  congrArg ClockState.tick
    ((tickUnits_clock inp _).trans ((tickCounters_evolves s.increment s).same .clock (by decide)))

theorem tickAll_clock (inp : TickIn) (s : State) : (tickAll inp s).clock = s.clock.tick := by
  rw [tickAll_eq, ← tickStart_clock inp s]
  exact (tickEnd_sameBut inp _ .clock (by decide)).trans ((takeSteps_evolves _).same .clock (by decide))

theorem lossAdvance_clock (n : Nat) (inp : TickIn) (s : State) : (lossAdvance n inp s).clock = .backup none := by
  have hrest : State.sameBut { s with clock := .backup none }
      [.time, .elapsed, .elapsedRem, .prevTime, .prevTime2, .cad, .ser, .cap, .switch] (lossAdvance n inp s) :=
    ((((tickCounters_evolves _ _).same.mono (by decide)).trans ((tickCads_evolves _).same.mono (by decide))).trans
      ((tickUnits_evolves inp _).same.mono (by decide))).trans ((setPrevTimes_evolves _ _ _).same.mono (by decide))
  exact hrest .clock (by decide)

theorem clockLoss_clock (n : Nat) (inp : TickIn) {s : State} (h : s.clock = .normal) :
    (clockLoss n inp s).clock = .backup none := by
  have hadvance : (lossAdvance n inp s).clock = .backup none :=
    lossAdvance_clock n inp s
  have hrest : (lossAdvance n inp s).sameBut (.servo :: tickEndFields ++ [.active, .switch]) (clockLoss n inp s) := by
    rw [clockLoss_of_normal n inp h]
    exact ((((((catchUpCads_evolves _).same.mono (by decide)).trans ((reevaluateSwitch_evolves _ _).same.mono (by decide))).trans
      ((servoClockLoss_evolves _).same.mono (by decide))).trans ((raise_evolves _ _).same.mono (by decide))).trans
      ((tickEnd_sameBut inp _).mono (by decide)))
  exact (hrest .clock (by decide)).trans hadvance

theorem after_clockOk (c : Instr) {s : State} (hs : s.clockOk) : (c.after s).clockOk := by
  cases c with
  | coldReset => exact (rfl : State.reset.clock.countOk = true)
  | stepTick inp =>
    rw [after_eq_of_exec (t := stepTick inp s) rfl, stepTick]
    split
    · exact hs
    · rw [State.clockOk, tickAll_clock]
      exact clockTick_countOk _ hs
  | tick inp =>
    rw [after_eq_of_exec (t := tickAll inp s) rfl, State.clockOk, tickAll_clock]
    exact clockTick_countOk _ hs
  | clockLoss n inp =>
    rw [after_eq_of_exec (t := clockLoss n inp s) rfl]
    by_cases h : s.clock = .normal
    · rw [State.clockOk, clockLoss_clock n inp h]
      rfl
    · rwa [clockLoss_of_backup n inp h]
  | clockRestored =>
    show (clockRestored s).clockOk
    unfold clockRestored
    dsimp only
    split
    · split
      · have hraise : (raise .clockRestored { s with clock := .normal }).clockOk := by
          rw [State.clockOk, raise_clock]
          rfl
        split
        · exact clockOk_of_sameBut (enterAcquire_evolves _ _).same hraise (by decide)
        · exact hraise
      · exact hs
    · exact hs
  | restoreQualificationStart =>
    show (qualificationStart s).clockOk
    unfold qualificationStart
    split
    · exact (rfl : (ClockState.backup (some 0)).countOk = true)
    · exact hs
  | restoreQualificationRestart =>
    show (qualificationRestart s).clockOk
    unfold qualificationRestart
    split
    · exact (rfl : (ClockState.backup (some 0)).countOk = true)
    · exact hs
  | _ => exact clockOk_of_sameBut (after_sameBut _ s) hs (by simp [Instr.changes])

/-- Settles O11: each table by the legality of what a write decodes to. -/
theorem writtenTablesStayLegal : Obligations.WrittenTablesStayLegal := by
  intro s t ⟨hclass, hcfg, hsmall, hgroups, hclock⟩ h
  exact ⟨step_keeps (P := State.classifyOk) (fun _ _ h => h) (fun c _ h => after_classifyOk c h) hclass h,
    servoLegal_closed.step hcfg h,
    step_keeps (P := State.smallRecordsOk) (fun _ _ h => h) (fun c _ h => after_smallRecordsOk c h) hsmall h,
    step_keeps (P := State.groupsOk) (fun _ _ h => h) (fun c _ h => after_groupsOk c h) hgroups h,
    step_keeps (P := State.clockOk) (fun _ _ h => h) (fun c _ h => after_clockOk c h) hclock h⟩

end Sys2Proof.Machine
end

section
/-!
PROOFS. The source table: the best ELIGIBLE record (R64), a rerun of selection (R64, R65), and the agreement of the
selection with the servo (R109).
-/

namespace Sys2Proof.Machine

/-! ### The best record of a list -/

/-- The best record of a list is the library's first element of the least key. -/
theorem bestOf_eq_argmin (l : List SourceRec) : bestOf l = l.argmin SourceRec.rankKey := by
  cases l with
  | nil => rfl
  | cons r rs =>
    refine (List.foldl_hom some fun a b => ?_).symm
    simp only [List.argAux, betterOf, SourceRec.better_iff_rankKey_lt, apply_ite some]

theorem mem_argmin_of_bestOf {l : List SourceRec} {a : SourceRec} (h : bestOf l = some a) :
    a ∈ l.argmin SourceRec.rankKey := by
  rwa [Option.mem_def, ← bestOf_eq_argmin]

theorem mem_of_bestOf {l : List SourceRec} {a : SourceRec} (h : bestOf l = some a) : a ∈ l :=
  List.argmin_mem (mem_argmin_of_bestOf h)

theorem rankKey_ge_of_bestOf {l : List SourceRec} {a x : SourceRec} (h : bestOf l = some a) (hx : x ∈ l) :
    a.rankKey ≤ x.rankKey :=
  not_lt.mp (List.not_lt_of_mem_argmin hx (mem_argmin_of_bestOf h))

theorem bestOf_eq_none {l : List SourceRec} : bestOf l = none ↔ l = [] := by
  cases l with
  | nil => exact ⟨fun _ => rfl, fun _ => rfl⟩
  | cons r rs => exact ⟨nofun, nofun⟩

/-! ### The records of the table -/

/-- A record stands in a slot of the table. -/
theorem mem_records {s : State} {r : SourceRec} : r ∈ s.records ↔ ∃ i : Fin 8, s.sources[i] = some r := by
  simp only [State.records, List.mem_filterMap, id_eq, exists_eq_right, Vector.mem_toList_iff, Vector.mem_iff_getElem]
  exact ⟨fun ⟨i, hi, h⟩ => ⟨⟨i, hi⟩, h⟩, fun ⟨i, h⟩ => ⟨i.val, i.isLt, h⟩⟩

theorem records_congr {s t : State} (h : t.sources = s.sources) : t.records = s.records := by
  rw [State.records, h]
  rfl

theorem bestEligible_some {s : State} {b : SourceRec} (h : s.bestEligible = some b) :
    b ∈ s.records ∧ b.st = .eligible ∧ ∀ r ∈ s.records, r.st = .eligible → b.rankKey ≤ r.rankKey := by
  obtain ⟨hmem, hst⟩ := List.mem_filter.mp (mem_of_bestOf h)
  exact ⟨hmem, by simpa using hst, fun r hr hre => rankKey_ge_of_bestOf h (List.mem_filter.mpr ⟨hr, by simpa using hre⟩)⟩

theorem bestEligible_none {s : State} : s.bestEligible = none ↔ ∀ r ∈ s.records, r.st ≠ .eligible := by
  rw [State.bestEligible, bestOf_eq_none, List.filter_eq_nil_iff]
  simp

/-- A record of the table is selected. -/
def State.hasSelected (s : State) : Prop := ∃ i : Fin 8, ∃ a ∈ s.sources[i], a.selected = true

theorem selected_some {s : State} {r : SourceRec} (h : s.selected = some r) :
    r.selected = true ∧ ∃ i : Fin 8, s.sources[i] = some r := by
  obtain ⟨x, hx, hr⟩ := List.exists_of_findSome?_eq_some h
  split at hr
  · rename_i y
    split at hr
    · rename_i hsel
      obtain rfl := Option.some.inj hr
      obtain ⟨i, hi, hget⟩ := Vector.mem_iff_getElem.mp (Vector.mem_toList_iff.mp hx)
      exact ⟨hsel, ⟨i, hi⟩, hget⟩
    · cases hr
  · cases hr

theorem selected_none {s : State} : s.selected = none ↔ ¬ s.hasSelected := by
  simp only [State.selected, List.findSome?_eq_none_iff, Vector.mem_toList_iff, State.hasSelected]
  constructor
  · rintro h ⟨i, a, ha, hsel⟩
    have hnone := h s.sources[i] (Vector.getElem_mem i.isLt)
    rw [Option.mem_def.mp ha] at hnone
    simp [hsel] at hnone
  · rintro h x hx
    obtain ⟨i, hi, hget⟩ := Vector.mem_iff_getElem.mp hx
    split
    · rename_i a
      split
      · rename_i hsel
        exact (h ⟨⟨i, hi⟩, a, hget, hsel⟩).elim
      · rfl
    · rfl

theorem selected_isSome {s : State} : s.selected.isSome = true ↔ s.hasSelected := by
  rw [← not_iff_not, Bool.not_eq_true, Option.isSome_eq_false_iff, Option.isNone_iff_eq_none, selected_none]

theorem selectedName_ne_none {s : State} : s.selectedName ≠ none ↔ s.hasSelected := by
  rw [State.selectedName, ne_eq, Option.map_eq_none_iff, selected_none, not_not]

theorem hasSelected_congr {s t : State} (h : t.sources = s.sources) : t.hasSelected ↔ s.hasSelected := by
  rw [State.hasSelected, h]
  rfl

/-! ### The selection -/

/-- R56 and R64 as one predicate: the names distinct, a selected record ELIGIBLE and the best, and one selected when any
is ELIGIBLE. -/
structure State.selectionOk (s : State) : Prop where
  names : s.namesOk
  eligible : ∀ i : Fin 8, ∀ a ∈ s.sources[i], a.selected = true → a.st = .eligible
  best : ∀ i j : Fin 8, ∀ a ∈ s.sources[i], ∀ b ∈ s.sources[j], a.selected = true → b.st = .eligible →
    a.rankKey ≤ b.rankKey
  any : ∀ i : Fin 8, ∀ a ∈ s.sources[i], a.st = .eligible → s.hasSelected

theorem State.selectionOk.congr {s t : State} (hs : s.selectionOk) (h : t.sources = s.sources) : t.selectionOk := by
  obtain ⟨hnames, helig, hbest, hany⟩ := hs
  refine ⟨?_, ?_, ?_, ?_⟩
  · rwa [State.namesOk, h]
  · rwa [h]
  · rwa [h]
  · rw [hasSelected_congr h, h]
    exact hany

theorem selectionOk_iff (s : State) : s.selectionOk ↔ s.namesOk ∧ s.oneSelected ∧ s.bestSelected := by
  constructor
  · intro h
    refine ⟨h.names, ⟨h.eligible, fun i j a ha b hb ⟨hsa, hsb⟩ => ?_⟩, ?_⟩
    · refine h.names i j a ha b hb (SourceRec.name_eq_of_rankKey_eq (le_antisymm ?_ ?_))
      · exact h.best i j a ha b hb hsa (h.eligible j b hb hsb)
      · exact h.best j i b hb a ha hsb (h.eligible i a ha hsa)
    · cases hsel : s.selected with
      | none =>
        have hno : s.bestEligible = none := bestEligible_none.mpr fun r hr hst => by
          obtain ⟨i, hi⟩ := mem_records.mp hr
          exact selected_none.mp hsel (h.any i r hi hst)
        rw [State.bestSelected, State.selectedName, hsel, hno]
      | some a =>
        obtain ⟨hsa, i, hi⟩ := selected_some hsel
        have helig := h.eligible i a hi hsa
        cases hbest : s.bestEligible with
        | none => exact (bestEligible_none.mp hbest a (mem_records.mpr ⟨i, hi⟩) helig).elim
        | some b =>
          obtain ⟨hb, hbst, hmin⟩ := bestEligible_some hbest
          obtain ⟨j, hj⟩ := mem_records.mp hb
          have hkey : a.rankKey = b.rankKey :=
            le_antisymm (h.best i j a hi b hj hsa hbst) (hmin a (mem_records.mpr ⟨i, hi⟩) helig)
          obtain ⟨hsender, hport⟩ := SourceRec.name_eq_of_rankKey_eq hkey
          rw [State.bestSelected, State.selectedName, hsel, hbest]
          simp [hsender, hport]
  · rintro ⟨hnames, ⟨helig, hone⟩, hbest⟩
    refine ⟨hnames, helig, fun i j a ha b hb hsa hbst => ?_, fun i a ha hst => ?_⟩
    · have hsel : s.selected = some a := by
        cases hsel : s.selected with
        | none => exact (selected_none.mp hsel ⟨i, a, ha, hsa⟩).elim
        | some x =>
          obtain ⟨hsx, k, hk⟩ := selected_some hsel
          obtain rfl := hone k i x hk a ha ⟨hsx, hsa⟩
          exact hk.symm.trans ha
      rw [State.bestSelected, State.selectedName, hsel] at hbest
      obtain ⟨x, hx, hname⟩ := Option.map_eq_some_iff.mp hbest.symm
      obtain ⟨hxm, -, hmin⟩ := bestEligible_some hx
      obtain ⟨k, hk⟩ := mem_records.mp hxm
      obtain ⟨hsender, hport⟩ := Prod.mk.inj hname
      obtain rfl := hnames k i x hk a ha ⟨hsender, hport⟩
      obtain rfl := Option.some.inj (hk.symm.trans ha)
      exact hmin b (mem_records.mpr ⟨j, hb⟩) hbst
    · by_contra hno
      rw [State.bestSelected, State.selectedName, selected_none.mpr hno] at hbest
      have hnone : s.bestEligible = none := Option.map_eq_none_iff.mp hbest.symm
      exact bestEligible_none.mp hnone a (mem_records.mpr ⟨i, ha⟩) hst

/-! ### A rerun -/

/-- The name of the best ELIGIBLE record: what a rerun selects. -/
abbrev State.bestName (s : State) : Option SourceName := s.bestEligible.map fun r => (r.sender, r.portNo)

/-- The table with the selected flags set by a rerun. -/
abbrev State.flagged (s : State) : State := { s with sources := mapSources (markSelected s.bestName) s.sources }

theorem rerunSelection_eq (old : Option SourceName) (s : State) :
    rerunSelection old s = if s.bestName = old then s.flagged else tellSelection s.bestName s.flagged := rfl

theorem rerunSelection_sources (old : Option SourceName) (s : State) : (rerunSelection old s).sources = s.flagged.sources := by
  rw [rerunSelection_eq]
  split
  · rfl
  · exact (tellSelection_evolves _ _).same .sources (by decide)

theorem flagged_get (s : State) (i : Fin 8) : s.flagged.sources[i] = markSelected s.bestName s.sources[i] := mapSources_get _ _ _

/-- A record of the flagged table is one of the table, selected when it is ELIGIBLE and has the name selected. -/
theorem mem_flagged {s : State} {i : Fin 8} {a : SourceRec} :
    a ∈ s.flagged.sources[i] ↔
      ∃ x ∈ s.sources[i],
        a = { x with selected := s.bestName == some (x.sender, x.portNo) && decide (x.st = .eligible) } := by
  rw [flagged_get, markSelected]
  simp [Option.mem_def, eq_comm]

theorem flagged_hasSelected (s : State) : s.flagged.hasSelected ↔ s.bestName ≠ none := by
  constructor
  · rintro ⟨i, a, ha, hsel⟩
    obtain ⟨x, -, rfl⟩ := mem_flagged.mp ha
    simp only [Bool.and_eq_true, beq_iff_eq] at hsel
    rw [hsel.1]
    nofun
  · intro h
    obtain ⟨b, hb⟩ := Option.ne_none_iff_exists'.mp fun hn => h (congrArg (Option.map _) hn)
    obtain ⟨hbm, hbst, -⟩ := bestEligible_some hb
    obtain ⟨i, hi⟩ := mem_records.mp hbm
    refine ⟨i, _, mem_flagged.mpr ⟨b, hi, rfl⟩, ?_⟩
    simp [State.bestName, hb, hbst]

theorem flagged_selectionOk {s : State} (hnames : s.namesOk) : s.flagged.selectionOk := by
  refine ⟨fun i j a ha b hb hname => ?_, fun i a ha hsel => ?_, fun i j a ha b hb hsel hst => ?_, fun i a ha hst => ?_⟩
  · obtain ⟨x, hx, rfl⟩ := mem_flagged.mp ha
    obtain ⟨y, hy, rfl⟩ := mem_flagged.mp hb
    exact hnames i j x hx y hy hname
  · obtain ⟨x, hx, rfl⟩ := mem_flagged.mp ha
    simp only [Bool.and_eq_true, decide_eq_true_eq] at hsel
    exact hsel.2
  · obtain ⟨x, hx, rfl⟩ := mem_flagged.mp ha
    obtain ⟨y, hy, rfl⟩ := mem_flagged.mp hb
    simp only [Bool.and_eq_true, beq_iff_eq] at hsel
    obtain ⟨b, hbest, hname⟩ := Option.map_eq_some_iff.mp hsel.1
    obtain ⟨hbm, -, hmin⟩ := bestEligible_some hbest
    obtain ⟨k, hk⟩ := mem_records.mp hbm
    obtain ⟨hsender, hport⟩ := Prod.mk.inj hname
    obtain rfl := hnames k i b hk x hx ⟨hsender, hport⟩
    obtain rfl := Option.some.inj (hk.symm.trans hx)
    exact hmin y (mem_records.mpr ⟨j, hy⟩) hst
  · obtain ⟨x, hx, rfl⟩ := mem_flagged.mp ha
    refine (flagged_hasSelected s).mpr fun hnone => ?_
    have hno : s.bestEligible = none := Option.map_eq_none_iff.mp hnone
    exact bestEligible_none.mp hno x (mem_records.mpr ⟨i, hx⟩) hst

theorem flagged_selectedName {s : State} : s.flagged.selectedName = s.bestName := by
  cases hsel : s.flagged.selected with
  | none =>
    rw [State.selectedName, hsel]
    by_contra h
    exact selected_none.mp hsel ((flagged_hasSelected s).mpr fun hn => h hn.symm)
  | some a =>
    obtain ⟨hsa, i, hi⟩ := selected_some hsel
    obtain ⟨x, -, rfl⟩ := mem_flagged.mp hi
    simp only [Bool.and_eq_true, beq_iff_eq] at hsa
    rw [State.selectedName, hsel, hsa.1]
    rfl

theorem rerunSelection_selectionOk (old : Option SourceName) {s : State} (hnames : s.namesOk) :
    (rerunSelection old s).selectionOk := (flagged_selectionOk hnames).congr (rerunSelection_sources old s)

theorem rerunSelection_hasSelected (old : Option SourceName) (s : State) :
    (rerunSelection old s).hasSelected ↔ s.bestName ≠ none :=
  (hasSelected_congr (rerunSelection_sources old s)).trans (flagged_hasSelected s)

/-! ### The servo's state and the selection -/

/-- R109 and R102: what the servo's state and the clock monitor's say of the selection. -/
structure SourceFits (st : ServoState) (c : ClockState) (sel : Prop) : Prop where
  selected : st = .acquire ∨ st = .track → sel
  unselected : st = .holdover ∨ (st = .free ∧ c = .normal) → ¬ sel
  backup : c ≠ .normal → st = .free

theorem SourceFits.congr {st : ServoState} {c : ClockState} {p q : Prop} (h : SourceFits st c p) (hpq : q ↔ p) :
    SourceFits st c q :=
  ⟨fun hst => hpq.mpr (h.selected hst), fun hst hq => h.unselected hst (hpq.mp hq), h.backup⟩

/-- The clock monitor moved, but not into or out of NORMAL. -/
theorem SourceFits.clock_congr {st : ServoState} {c c' : ClockState} {p : Prop} (h : SourceFits st c p)
    (hc : c' = .normal ↔ c = .normal) : SourceFits st c' p :=
  ⟨h.selected, fun hst => h.unselected (hst.imp_right fun ⟨hf, hn⟩ => ⟨hf, hc.mp hn⟩), fun hne => h.backup (mt hc.mpr hne)⟩

theorem SourceFits.acquire {c : ClockState} {p : Prop} (hp : p) (hc : c = .normal) : SourceFits .acquire c p :=
  ⟨fun _ => hp, fun h => h.elim nofun fun h => (nomatch h.1), fun h => (h hc).elim⟩

theorem SourceFits.track {c : ClockState} {p : Prop} (hp : p) (hc : c = .normal) : SourceFits .track c p :=
  ⟨fun _ => hp, fun h => h.elim nofun fun h => (nomatch h.1), fun h => (h hc).elim⟩

theorem SourceFits.free {c : ClockState} {p : Prop} (hp : c = .normal → ¬ p) : SourceFits .free c p :=
  ⟨fun h => h.elim nofun nofun, fun h => h.elim nofun fun h => (hp h.2), fun _ => rfl⟩

theorem SourceFits.holdover {c : ClockState} {p : Prop} (hp : ¬ p) (hc : c = .normal) : SourceFits .holdover c p :=
  ⟨fun h => h.elim nofun nofun, fun _ => hp, fun h => (h hc).elim⟩

/-- In a state other than FREE the clock monitor is NORMAL. -/
theorem SourceFits.normal {st : ServoState} {c : ClockState} {p : Prop} (h : SourceFits st c p) (hst : st ≠ .free) :
    c = .normal := by
  by_contra hc
  exact hst (h.backup hc)

abbrev State.servoFits (s : State) (p : Prop) : Prop := SourceFits s.servo.st s.clock p

theorem servoSourceOk_iff (s : State) : s.servoSourceOk ↔ s.servoFits s.hasSelected := by
  constructor
  · rintro ⟨h1, h2, h3⟩
    exact ⟨fun h => selected_isSome.mp (h1 h), fun h => selected_none.mp (h2 h), h3⟩
  · rintro ⟨h1, h2, h3⟩
    exact ⟨fun h => selected_isSome.mpr (h1 h), fun h => selected_none.mpr (h2 h), h3⟩

theorem enterAcquire_servoFits (fresh : Bool) {s : State} {p : Prop} (hp : p) (hc : s.clock = .normal) :
    (enterAcquire fresh s).servoFits p := by
  have hclock : (enterAcquire fresh s).clock = s.clock := (enterAcquire_evolves fresh s).same .clock (by decide)
  rw [State.servoFits, enterAcquire_servo, hclock]
  exact .acquire hp hc

/-- A change of selection brings the servo into a state that goes with it. -/
theorem servoSelection_servoFits (now : Option SourceName) {s : State} {p : Prop} (hs : s.servoFits p) :
    (servoSelection now s).servoFits (now ≠ none) := by
  unfold servoSelection
  split
  · split
    · rename_i hc
      exact enterAcquire_servoFits true nofun hc
    · rename_i hst hc
      rw [State.servoFits, hst]
      exact .free fun h => (hc h).elim
  · rename_i hst
    rw [State.servoFits, hst]
    exact .free fun _ h => h rfl
  · rename_i hst
    rw [State.servoFits, hst]
    exact .acquire nofun (hs.normal (by rw [hst]; nofun))
  · exact .free fun _ h => h rfl
  · rename_i hst
    exact enterAcquire_servoFits false nofun (hs.normal (by rw [hst]; nofun))
  · rename_i hst
    have hc : s.clock = .normal := hs.normal (by rw [hst]; nofun)
    split
    · have hclock : (enterHoldover s).clock = s.clock := (enterHoldover_evolves s).same .clock (by decide)
      rw [State.servoFits, enterHoldover_servo, hclock]
      exact .holdover (fun h => h rfl) hc
    · exact .free fun _ h => h rfl
  · rename_i hst
    exact enterAcquire_servoFits true nofun (hs.normal (by rw [hst]; nofun))
  · rename_i hst
    rw [State.servoFits, hst]
    exact .holdover (fun h => h rfl) (hs.normal (by rw [hst]; nofun))

theorem rerunSelection_servoFits {old : Option SourceName} {s : State} (hs : s.servoFits (old ≠ none)) :
    (rerunSelection old s).servoFits (rerunSelection old s).hasSelected := by
  refine SourceFits.congr (p := s.bestName ≠ none) ?_ (rerunSelection_hasSelected old s)
  rw [rerunSelection_eq]
  split
  · rename_i h
    rw [h]
    exact hs
  · have htold : (exchangeSourceChange s.bestName (raise .sourceChanged s.flagged)).servoFits (old ≠ none) := by
      have hev := (exchangeSourceChange_evolves s.bestName (raise .sourceChanged s.flagged)).same
      rw [State.servoFits, show State.servo _ = s.servo from (hev .servo (by decide)).trans (raise_servo _ _),
        show State.clock _ = s.clock from (hev .clock (by decide)).trans (raise_clock _ _)]
      exact hs
    exact servoSelection_servoFits _ htold

/-! ### The source table and the servo together -/

/-- The four predicates of the source table and the servo. -/
structure State.sourcesOk (s : State) : Prop where
  selection : s.selectionOk
  servo : s.servoFits s.hasSelected

theorem sourcesOk_iff (s : State) : s.sourcesOk ↔ s.namesOk ∧ s.oneSelected ∧ s.bestSelected ∧ s.servoSourceOk := by
  rw [servoSourceOk_iff]
  constructor
  · rintro ⟨hsel, hservo⟩
    obtain ⟨hn, ho, hb⟩ := (selectionOk_iff s).mp hsel
    exact ⟨hn, ho, hb, hservo⟩
  · rintro ⟨hn, ho, hb, hservo⟩
    exact ⟨(selectionOk_iff s).mpr ⟨hn, ho, hb⟩, hservo⟩

theorem sourcesOk_of_sameBut {F : List Field} {s t : State} (h : s.sameBut F t) (hs : s.sourcesOk)
    (hF : Field.sources ∉ F ∧ Field.servo ∉ F ∧ Field.clock ∉ F) : t.sourcesOk := by
  obtain ⟨hFs, hFv, hFc⟩ := hF
  have hsrc : t.sources = s.sources := h .sources hFs
  have hservo : t.servo = s.servo := h .servo hFv
  have hclock : t.clock = s.clock := h .clock hFc
  refine ⟨hs.selection.congr hsrc, ?_⟩
  rw [State.servoFits, hservo, hclock]
  exact hs.servo.congr (hasSelected_congr hsrc)

/-- A rerun, after a change of the table that keeps its names distinct. -/
theorem rerunSelection_sourcesOk {s t : State} (hs : s.sourcesOk) (hnames : t.namesOk)
    (hst : t.servo.st = s.servo.st) (hclock : t.clock = s.clock) : (rerunSelection s.selectedName t).sourcesOk := by
  refine ⟨rerunSelection_selectionOk _ hnames, rerunSelection_servoFits ?_⟩
  rw [State.servoFits, hst, hclock]
  exact hs.servo.congr selectedName_ne_none

/-! ### Changes of the table without a rerun -/

theorem setSource_mem {s : State} {i j : Fin 8} {x : Option SourceRec} {a : SourceRec} :
    a ∈ (s.setSource i x).sources[j] ↔ if j = i then a ∈ x else a ∈ s.sources[j] := by
  rw [State.setSource_get]
  split <;> rfl

/-- A record that ranks as the one it replaces, in the same state and as much selected. -/
theorem State.selectionOk.replaced {s : State} (hs : s.selectionOk) {i : Fin 8} {r r' : SourceRec} (hr : s.sources[i] = some r)
    (hkey : r'.rankKey = r.rankKey) (hst : r'.st = r.st) (hsel : r'.selected = r.selected) :
    (s.setSource i (some r')).selectionOk ∧ ((s.setSource i (some r')).hasSelected ↔ s.hasSelected) := by
  have hold : ∀ j : Fin 8, ∀ a ∈ (s.setSource i (some r')).sources[j], ∃ x ∈ s.sources[j],
      x.rankKey = a.rankKey ∧ x.st = a.st ∧ x.selected = a.selected := fun j a ha => by
    rw [setSource_mem] at ha
    split at ha
    · rename_i hj
      obtain rfl := Option.mem_some.mp ha
      subst hj
      exact ⟨r, hr, hkey.symm, hst.symm, hsel.symm⟩
    · exact ⟨a, ha, rfl, rfl, rfl⟩
  have hnew : ∀ j : Fin 8, ∀ x ∈ s.sources[j], ∃ a ∈ (s.setSource i (some r')).sources[j], a.selected = x.selected := fun j x hx => by
    by_cases hj : j = i
    · subst hj
      obtain rfl := Option.some.inj (hr.symm.trans hx)
      exact ⟨r', setSource_mem.mpr (by rw [if_pos rfl]; rfl), hsel⟩
    · exact ⟨x, setSource_mem.mpr (by rwa [if_neg hj]), rfl⟩
  have hhas : (s.setSource i (some r')).hasSelected ↔ s.hasSelected := by
    constructor
    · rintro ⟨j, a, ha, hsa⟩
      obtain ⟨x, hx, -, -, hsx⟩ := hold j a ha
      exact ⟨j, x, hx, hsx.trans hsa⟩
    · rintro ⟨j, x, hx, hsx⟩
      obtain ⟨a, ha, hsa⟩ := hnew j x hx
      exact ⟨j, a, ha, hsa.trans hsx⟩
  refine ⟨⟨fun j k a ha b hb hname => ?_, fun j a ha hsa => ?_, fun j k a ha b hb hsa hbst => ?_, fun j a ha hast => ?_⟩, hhas⟩
  · obtain ⟨x, hx, hxk, -⟩ := hold j a ha
    obtain ⟨y, hy, hyk, -⟩ := hold k b hb
    obtain ⟨hxs, hxp⟩ := SourceRec.name_eq_of_rankKey_eq hxk
    obtain ⟨hys, hyp⟩ := SourceRec.name_eq_of_rankKey_eq hyk
    exact hs.names j k x hx y hy ⟨hxs.trans (hname.1.trans hys.symm), hxp.trans (hname.2.trans hyp.symm)⟩
  · obtain ⟨x, hx, -, hxst, hxs⟩ := hold j a ha
    exact hxst.symm.trans (hs.eligible j x hx (hxs.trans hsa))
  · obtain ⟨x, hx, hxk, -, hxs⟩ := hold j a ha
    obtain ⟨y, hy, hyk, hyst, -⟩ := hold k b hb
    rw [← hxk, ← hyk]
    exact hs.best j k x hx y hy (hxs.trans hsa) (hyst.trans hbst)
  · obtain ⟨x, hx, -, hxst, -⟩ := hold j a ha
    exact hhas.mpr (hs.any j x hx (hxst.trans hast))

/-- A new QUALIFYING record in an empty slot. -/
theorem State.selectionOk.joined {s : State} (hs : s.selectionOk) {i : Fin 8} {r : SourceRec} (hempty : s.sources[i] = none)
    (hname : ∀ j : Fin 8, ∀ a ∈ s.sources[j], ¬ (a.sender = r.sender ∧ a.portNo = r.portNo)) (hst : r.st = .qualifying)
    (hsel : r.selected = false) :
    (s.setSource i (some r)).selectionOk ∧ ((s.setSource i (some r)).hasSelected ↔ s.hasSelected) := by
  have hcases : ∀ j : Fin 8, ∀ a ∈ (s.setSource i (some r)).sources[j], (j = i ∧ a = r) ∨ a ∈ s.sources[j] := fun j a ha => by
    rw [setSource_mem] at ha
    split at ha
    · rename_i hj
      exact .inl ⟨hj, (Option.mem_some.mp ha).symm⟩
    · exact .inr ha
  have hkept : ∀ j : Fin 8, ∀ a ∈ s.sources[j], a ∈ (s.setSource i (some r)).sources[j] := fun j a ha => by
    rw [setSource_mem, if_neg fun hj => by rw [hj, hempty] at ha; cases ha]
    exact ha
  have hhas : (s.setSource i (some r)).hasSelected ↔ s.hasSelected := by
    constructor
    · rintro ⟨j, a, ha, hsa⟩
      obtain ⟨-, rfl⟩ | ha := hcases j a ha
      · exact absurd (hsel.symm.trans hsa) (by decide)
      · exact ⟨j, a, ha, hsa⟩
    · rintro ⟨j, a, ha, hsa⟩
      exact ⟨j, a, hkept j a ha, hsa⟩
  refine ⟨⟨fun j k a ha b hb hab => ?_, fun j a ha hsa => ?_, fun j k a ha b hb hsa hbst => ?_, fun j a ha hast => ?_⟩, hhas⟩
  · obtain ⟨hj, har⟩ | ha := hcases j a ha
    · obtain ⟨hk, -⟩ | hb := hcases k b hb
      · rw [hj, hk]
      · rw [har] at hab
        exact (hname k b hb ⟨hab.1.symm, hab.2.symm⟩).elim
    · obtain ⟨-, hbr⟩ | hb := hcases k b hb
      · rw [hbr] at hab
        exact (hname j a ha hab).elim
      · exact hs.names j k a ha b hb hab
  · obtain ⟨-, rfl⟩ | ha := hcases j a ha
    · exact absurd (hsel.symm.trans hsa) (by decide)
    · exact hs.eligible j a ha hsa
  · obtain ⟨-, rfl⟩ | ha := hcases j a ha
    · exact absurd (hsel.symm.trans hsa) (by decide)
    · obtain ⟨-, rfl⟩ | hb := hcases k b hb
      · exact absurd (hst.symm.trans hbst) (by decide)
      · exact hs.best j k a ha b hb hsa hbst
  · obtain ⟨-, rfl⟩ | ha := hcases j a ha
    · exact absurd (hst.symm.trans hast) (by decide)
    · exact hhas.mpr (hs.any j a ha hast)

theorem namesOk_of_subset {s t : State} (hs : s.namesOk) (h : ∀ i : Fin 8, ∀ a ∈ t.sources[i], a ∈ s.sources[i]) : t.namesOk :=
  fun i j a ha b hb hab => hs i j a (h i a ha) b (h j b hb) hab

/-- Records removed, a selected one kept if there was one. -/
theorem State.selectionOk.pruned {s t : State} (hs : s.selectionOk) (h : ∀ i : Fin 8, ∀ a ∈ t.sources[i], a ∈ s.sources[i])
    (hhas : s.hasSelected → t.hasSelected) : t.selectionOk :=
  ⟨namesOk_of_subset hs.names h, fun i a ha => hs.eligible i a (h i a ha),
    fun i j a ha b hb => hs.best i j a (h i a ha) b (h j b hb), fun i a ha hst => hhas (hs.any i a (h i a ha) hst)⟩

theorem hasSelected_of_subset {s t : State} (h : ∀ i : Fin 8, ∀ a ∈ t.sources[i], a ∈ s.sources[i]) (ht : t.hasSelected) :
    s.hasSelected := by
  obtain ⟨i, a, ha, hsel⟩ := ht
  exact ⟨i, a, h i a ha, hsel⟩

/-! ### Finding slots -/

theorem named_iff {r : SourceRec} {n : SourceName} : r.named n = true ↔ r.sender = n.1 ∧ r.portNo = n.2 := by
  simp [SourceRec.named]

theorem mem_allSlots (j : Fin 8) : j ∈ allSlots := by
  revert j
  decide

theorem slotOf_none {s : State} {n : SourceName} (h : s.slotOf n = none) (j : Fin 8) (a : SourceRec) (ha : a ∈ s.sources[j]) :
    ¬ (a.sender = n.1 ∧ a.portNo = n.2) := fun hname => by
  have hj := List.find?_eq_none.mp h j (mem_allSlots j)
  rw [Option.mem_def.mp ha] at hj
  exact hj (named_iff.mpr hname)

theorem slotOf_some {s : State} {n : SourceName} {i : Fin 8} (h : s.slotOf n = some i) :
    ∃ r ∈ s.sources[i], r.sender = n.1 ∧ r.portNo = n.2 := by
  have hi := List.find?_some h
  split at hi
  · rename_i r hr
    exact ⟨r, hr, named_iff.mp hi⟩
  · cases hi

theorem emptySlot_some {s : State} {i : Fin 8} (h : s.emptySlot = some i) : s.sources[i] = none :=
  Option.isNone_iff_eq_none.mp (List.find?_some (p := fun j : Fin 8 => s.sources[j].isNone) h)

/-! ### Beacons and timeouts -/

theorem refreshed_st {r b : SourceRec} (h : ¬ (r.st = .qualifying ∧ (refreshed r b).st = .eligible)) :
    (refreshed r b).st = r.st := by
  unfold refreshed at h ⊢
  dsimp only at h ⊢
  split at h
  · rename_i hcount
    rw [if_pos hcount]
    cases hst : r.st
    · exact (h ⟨hst, rfl⟩).elim
    · rfl
  · rename_i hcount
    rw [if_neg hcount]

theorem setSource_namesOk {s : State} {i : Fin 8} {r : SourceRec} (hs : s.namesOk)
    (hname : ∀ j : Fin 8, j ≠ i → ∀ a ∈ s.sources[j], ¬ (a.sender = r.sender ∧ a.portNo = r.portNo)) :
    (s.setSource i (some r)).namesOk := by
  intro j k a ha b hb hab
  rw [setSource_mem] at ha hb
  by_cases hj : j = i <;> by_cases hk : k = i
  · rw [hj, hk]
  · rw [if_pos hj] at ha
    rw [if_neg hk] at hb
    obtain rfl := Option.mem_some.mp ha
    exact (hname k hk b hb ⟨hab.1.symm, hab.2.symm⟩).elim
  · rw [if_neg hj] at ha
    rw [if_pos hk] at hb
    obtain rfl := Option.mem_some.mp hb
    exact (hname j hj a ha hab).elim
  · rw [if_neg hj] at ha
    rw [if_neg hk] at hb
    exact hs j k a ha b hb hab

theorem takeBeacon_sourcesOk (content : List Byte) (pos : Nat) (h : Hdr) (st : Stamp) {s : State} (hs : s.sourcesOk) :
    (takeBeacon content pos h st s).sourcesOk := by
  unfold takeBeacon
  dsimp only
  split
  · exact hs
  · split
    · rename_i i hslot
      obtain ⟨r, hr, hname⟩ := slotOf_some hslot
      split
      · rename_i r' hr'
        obtain rfl := Option.some.inj (hr'.symm.trans hr)
        split
        · exact hs
        · split
          · refine rerunSelection_sourcesOk hs (setSource_namesOk hs.selection.names fun j hj a ha hab => hj ?_) rfl rfl
            exact hs.selection.names j i a ha r' hr ⟨hab.1.trans hname.1.symm, hab.2.trans hname.2.symm⟩
          · rename_i hno
            obtain ⟨hst, hkey⟩ := not_or.mp hno
            have hkey : r'.rankKey = (refreshed r' (recordOfBeacon content pos h st)).rankKey :=
              congrArg Prod.fst (not_not.mp hkey)
            obtain ⟨hsel, hhas⟩ := hs.selection.replaced hr hkey.symm (refreshed_st hst) rfl
            exact ⟨hsel, hs.servo.congr hhas⟩
      · exact hs
    · rename_i hslot
      split
      · rename_i i hempty
        obtain ⟨hsel, hhas⟩ := hs.selection.joined (r := recordOfBeacon content pos h st) (emptySlot_some hempty)
          (fun j a ha => slotOf_none hslot j a ha) rfl rfl
        exact ⟨hsel, hs.servo.congr hhas⟩
      · split
        · split
          · split
            · exact rerunSelection_sourcesOk hs
                (setSource_namesOk hs.selection.names fun j _ a ha => slotOf_none hslot j a ha) rfl rfl
            · exact hs
          · exact hs
        · exact hs

theorem setSource_none_subset (s : State) (i : Fin 8) :
    ∀ j : Fin 8, ∀ a ∈ (s.setSource i none).sources[j], a ∈ s.sources[j] := fun j a ha => by
  rw [setSource_mem] at ha
  split at ha
  · cases ha
  · exact ha

theorem sourceTimeout_sourcesOk (i : Fin 8) {s : State} (hs : s.sourcesOk) : (sourceTimeout i s).sourcesOk := by
  have hsub := setSource_none_subset s i
  unfold sourceTimeout
  dsimp only
  split
  · rename_i r hr
    split
    · split
      · exact rerunSelection_sourcesOk hs (namesOk_of_subset hs.selection.names hsub) rfl rfl
      · rename_i hsel
        have hhas : s.hasSelected → (s.setSource i none).hasSelected := fun ⟨j, a, ha, hsa⟩ =>
          ⟨j, a, setSource_mem.mpr (by
            rw [if_neg fun hj => by
              rw [hj, hr] at ha
              exact hsel (Option.mem_some.mp ha ▸ hsa)]
            exact ha), hsa⟩
        exact ⟨hs.selection.pruned hsub hhas, hs.servo.congr ⟨hasSelected_of_subset hsub, hhas⟩⟩
    · exact hs
  · exact hs

/-! ### Samples -/

/-- ACQUIRE and TRACK go with the same selections. -/
theorem SourceFits.locking {st st' : ServoState} {c : ClockState} {p : Prop} (h : SourceFits st c p)
    (hst : st = .acquire ∨ st = .track) (hst' : st' = .acquire ∨ st' = .track) : SourceFits st' c p := by
  have hp : p := h.selected hst
  have hc : c = .normal := h.normal (by obtain rfl | rfl := hst <;> nofun)
  obtain rfl | rfl := hst'
  · exact .acquire hp hc
  · exact .track hp hc

theorem detect_st (c : ServoCfg) (theta : Int) (v : Servo) : (v.detect c theta).st = v.st := by
  unfold Servo.detect
  split_ifs <;> rfl

theorem acquireSample_st (o : Offset) {s : State} (hs : s.servo.st = .acquire) :
    (acquireSample o s).servo.st = .acquire ∨ (acquireSample o s).servo.st = .track := by
  rw [acquireSample_servo]
  split
  · exact .inl hs
  · exact .inr (detect_st _ _ _)

/-- A sample leaves the servo's state or moves it between ACQUIRE and TRACK. -/
theorem servoSample_st (o : Offset) (s : State) :
    (servoSample o s).servo.st = s.servo.st ∨
      (s.servo.st = .acquire ∨ s.servo.st = .track) ∧
        ((servoSample o s).servo.st = .acquire ∨ (servoSample o s).servo.st = .track) := by
  unfold servoSample
  split
  · exact .inl rfl
  · rename_i h
    exact .inr ⟨.inl h, acquireSample_st o h⟩
  · rename_i h
    unfold trackSample
    split
    · split
      · exact .inr ⟨.inr h, acquireSample_st o (by rw [enterAcquire_servo]; rfl)⟩
      · exact .inl rfl
    · refine .inr ⟨.inr h, .inr ?_⟩
      rw [applySample_servo h]
      exact detect_st _ _ _
  · exact .inl rfl

theorem servoSample_sourcesOk (o : Offset) {s : State} (hs : s.sourcesOk) : (servoSample o s).sourcesOk := by
  have hsrc : (servoSample o s).sources = s.sources := (servoSample_evolves o s).same .sources (by decide)
  have hclock : (servoSample o s).clock = s.clock := (servoSample_evolves o s).same .clock (by decide)
  refine ⟨hs.selection.congr hsrc, SourceFits.congr ?_ (hasSelected_congr hsrc)⟩
  rw [hclock]
  obtain h | ⟨h, h'⟩ := servoSample_st o s
  · rw [h]
    exact hs.servo
  · exact hs.servo.locking h h'

theorem intakeNext_sourcesOk {s : State} (hs : s.sourcesOk) : (intakeNext s).sourcesOk := by
  unfold intakeNext
  split
  · exact hs
  · rename_i c rest _
    have hcopies : State.sourcesOk { s with copies := rest } := ⟨hs.selection.congr rfl, hs.servo⟩
    dsimp only
    split
    · split
      · exact takeBeacon_sourcesOk _ _ _ _ hcopies
      · obtain h | ⟨o, u, hu, h⟩ := exchangeTake_cases c (readHdr (contentOf c.bytes) c.hdrPos) { s with copies := rest }
        · exact sourcesOk_of_sameBut h.same hcopies (by decide)
        · rw [h]
          exact servoSample_sourcesOk o (sourcesOk_of_sameBut hu.same hcopies (by decide))
    · exact hcopies

/-! ### The servo and the clock monitor by themselves -/

/-- A change of the servo and the clock monitor alone. -/
theorem State.sourcesOk.moved {F : List Field} {s t : State} (hs : s.sourcesOk) (h : s.sameBut F t) (hF : Field.sources ∉ F)
    (ht : SourceFits t.servo.st t.clock s.hasSelected) : t.sourcesOk := by
  have hsrc : t.sources = s.sources := h .sources hF
  exact ⟨hs.selection.congr hsrc, ht.congr (hasSelected_congr hsrc)⟩

theorem holdoverOver_st {s : State} (h : holdoverOver s = true) : s.servo.st = .holdover := by
  unfold holdoverOver at h
  split at h
  · assumption
  · cases h

theorem expireHoldover_sourcesOk {s : State} (hs : s.sourcesOk) : (expireHoldover s).sourcesOk := by
  by_cases h : holdoverOver s = true
  · refine hs.moved (expireHoldover_evolves s).same (by decide) ?_
    have hst : (expireHoldover s).servo.st = .free := by
      rw [expireHoldover, if_pos h, raise_servo]
      rfl
    rw [hst]
    exact .free fun _ => hs.servo.unselected (.inl (holdoverOver_st h))
  · rwa [expireHoldover, if_neg h]

theorem clockTick_normal (c : ClockState) : c.tick = .normal ↔ c = .normal := by
  cases c with
  | normal => exact ⟨fun _ => rfl, fun _ => rfl⟩
  | backup q =>
    cases q with
    | none => exact ⟨nofun, nofun⟩
    | some n => exact ⟨nofun, nofun⟩

theorem tickAll_sourcesOk (inp : TickIn) {s : State} (hs : s.sourcesOk) : (tickAll inp s).sourcesOk := by
  refine hs.moved (tickAll_sameBut inp s) (by decide) ?_
  have hservo : (tickAll inp s).servo = s.servo := tickAll_sameBut inp s .servo (by decide)
  rw [hservo, tickAll_clock]
  exact hs.servo.clock_congr (clockTick_normal s.clock)

theorem clockLoss_servo {n : Nat} {inp : TickIn} {s : State} (h : s.clock = .normal) :
    (clockLoss n inp s).servo = s.servo.clockLost := by
  have hcaught : (lossCaughtUp n inp s).servo = s.servo := (lossCaughtUp_evolves n inp s).same .servo (by decide)
  rw [clockLoss_of_normal n inp h, show State.servo _ = _ from tickEnd_sameBut inp _ .servo (by decide)]
  show (raise .clockLoss (servoClockLoss (lossCaughtUp n inp s))).servo = _
  rw [raise_servo, servoClockLoss_servo, hcaught]

theorem clockLoss_sourcesOk (n : Nat) (inp : TickIn) {s : State} (hs : s.sourcesOk) : (clockLoss n inp s).sourcesOk := by
  by_cases h : s.clock = .normal
  · refine hs.moved (clockLoss_sameBut n inp s) (by decide) ?_
    rw [clockLoss_servo h, clockLoss_clock n inp h]
    exact .free nofun
  · rwa [clockLoss_of_backup n inp h]

theorem clockRestored_sourcesOk {s : State} (hs : s.sourcesOk) : (clockRestored s).sourcesOk := by
  unfold clockRestored
  dsimp only
  split
  · rename_i n hclock
    split
    · have hfree : s.servo.st = .free := hs.servo.backup (by rw [hclock]; nofun)
      have hev : s.evolves [.clock] (raise .clockRestored { s with clock := .normal }) :=
        (setClock_evolves s .normal).trans ((raise_evolves _ _).mono (by decide))
      have hnormal : (raise .clockRestored { s with clock := .normal }).clock = .normal := raise_clock _ _
      split
      · rename_i hsel
        refine hs.moved (F := [.clock, .servo]) ((hev.mono (by decide)).trans ((enterAcquire_evolves _ _).mono (by decide))).same
          (by decide) (enterAcquire_servoFits true ?_ hnormal)
        rw [State.selectedName, Option.isSome_map] at hsel
        exact selected_isSome.mp hsel
      · rename_i hsel
        refine hs.moved hev.same (by decide) ?_
        rw [raise_servo, hfree]
        refine .free fun _ hhas => hsel ?_
        rw [State.selectedName, Option.isSome_map]
        exact selected_isSome.mpr hhas
    · exact hs
  · exact hs

theorem setClock_sourcesOk {s : State} (hs : s.sourcesOk) (c : ClockState) (hc : c = .normal ↔ s.clock = .normal) :
    State.sourcesOk { s with clock := c } :=
  hs.moved (setClock_evolves s c).same (by decide) (hs.servo.clock_congr hc)

/-! ### Writing the SERVO record -/

/-- The record, the clamped servo and the moved schedule of a SERVO write (R77, R78, R101). -/
def servoStored (cfg : ServoCfg) (s : State) : State :=
  let s1 :=
    { s with
      servoCfg := cfg
      servo :=
        { s.servo with
          a := clamp cfg.maxAdjust s.servo.a, integ := clamp (cfg.maxAdjust * 65536) s.servo.integ } }
  if cfg.probeCode = s.servoCfg.probeCode then s1
  else { s1 with exch := { s1.exch with sched := rescheduled s1 s1.exch.sched } }

/-- A SERVO write with its table pruned, before selection is rerun (R54). -/
def servoWritten (cfg : ServoCfg) (s : State) : State :=
  { servoStored cfg s with sources := prunedSources (decide (cfg.domain ≠ s.servoCfg.domain)) (servoStored cfg s) }

/-- The rerun of selection of a SERVO write. -/
def servoReselected (cfg : ServoCfg) (s : State) : State :=
  if (servoWritten cfg s).selectedName = s.selectedName then servoWritten cfg s
  else rerunSelection s.selectedName (servoWritten cfg s)

/-- The expiry of the schedule of a SERVO write. -/
def servoRescheduled (cfg : ServoCfg) (s : State) : State :=
  if cfg.probeCode = s.servoCfg.probeCode then servoReselected cfg s else expireSchedule (servoReselected cfg s)

theorem applyServo_eq (cfg : ServoCfg) (s : State) :
    applyServo cfg s =
      if cfg.holdoverLimit = s.servoCfg.holdoverLimit then servoRescheduled cfg s
      else expireHoldover (servoRescheduled cfg s) := rfl

theorem servoStored_sources (cfg : ServoCfg) (s : State) : (servoStored cfg s).sources = s.sources := by
  unfold servoStored
  dsimp only
  split <;> rfl

theorem servoWritten_subset (cfg : ServoCfg) (s : State) :
    ∀ i : Fin 8, ∀ a ∈ (servoWritten cfg s).sources[i], a ∈ s.sources[i] := fun i a ha => by
  simp only [servoWritten, prunedSources, mapSources_get, servoStored_sources] at ha
  split at ha
  · rename_i x hx
    split at ha
    · cases ha
    · rw [hx]
      exact ha
  · cases ha

theorem servoWritten_st (cfg : ServoCfg) (s : State) :
    (servoWritten cfg s).servo.st = s.servo.st ∧ (servoWritten cfg s).clock = s.clock := by
  unfold servoWritten servoStored
  dsimp only
  split <;> exact ⟨rfl, rfl⟩

theorem servoReselected_sourcesOk (cfg : ServoCfg) {s : State} (hs : s.sourcesOk) : (servoReselected cfg s).sourcesOk := by
  have hsub := servoWritten_subset cfg s
  obtain ⟨hst, hclock⟩ := servoWritten_st cfg s
  unfold servoReselected
  split
  · rename_i hname
    have hhas : (servoWritten cfg s).hasSelected ↔ s.hasSelected := by
      rw [← selectedName_ne_none, hname, selectedName_ne_none]
    refine ⟨hs.selection.pruned hsub hhas.mpr, ?_⟩
    rw [State.servoFits, hst, hclock]
    exact hs.servo.congr hhas
  · exact rerunSelection_sourcesOk hs (namesOk_of_subset hs.selection.names hsub) hst hclock

theorem applyServo_sourcesOk (cfg : ServoCfg) {s : State} (hs : s.sourcesOk) : (applyServo cfg s).sourcesOk := by
  have hsched : (servoRescheduled cfg s).sourcesOk := by
    unfold servoRescheduled
    split
    · exact servoReselected_sourcesOk cfg hs
    · exact sourcesOk_of_sameBut (expireSchedule_evolves _).same (servoReselected_sourcesOk cfg hs) (by decide)
  rw [applyServo_eq]
  split
  · exact hsched
  · exact expireHoldover_sourcesOk hsched

theorem writeEntry_sourcesOk {t : TableId} {i : Nat} {b : List Byte} {s u : State} {c : Bool} (hs : s.sourcesOk)
    (h : writeEntry t i b s = .applied c u) : u.sourcesOk := by
  obtain ⟨n, e, -, rfl⟩ | ⟨-, -, -, rfl⟩ | ⟨cfg, -, rfl⟩ | rfl | ⟨k, n, r, -, -, rfl⟩ | ⟨k, n, r, -, rfl⟩ |
    ⟨k, m, r, -, rfl⟩ | ⟨n, r, -, rfl⟩ | ⟨g, r, -, rfl⟩ | ⟨n, rfl⟩ := writeEntry_applied h
  · exact ⟨hs.selection.congr rfl, hs.servo⟩
  · exact sourcesOk_of_sameBut (s.setPort_sameBut _ _) hs (by decide)
  · exact applyServo_sourcesOk cfg hs
  · exact ⟨hs.selection.congr rfl, hs.servo⟩
  · exact sourcesOk_of_sameBut (storeCad_evolves k n r s).same hs (by decide)
  · exact sourcesOk_of_sameBut (setBanks_evolves s _).same hs (by decide)
  · exact sourcesOk_of_sameBut (storeLabel_evolves k m r s).same hs (by decide)
  · exact ⟨hs.selection.congr rfl, hs.servo⟩
  · exact ⟨hs.selection.congr rfl, hs.servo⟩
  · exact ⟨hs.selection.congr rfl, hs.servo⟩

theorem serve_sourcesOk {c : Command} {core : List Byte → State → Reply}
    (hcore : ∀ (b : List Byte) (s : State), s.sourcesOk → (core b s).after.sourcesOk) {s : State} (hs : s.sourcesOk) :
    (serve c core s).sourcesOk :=
  serve_keeps (P := State.sourcesOk) (fun _ _ _ _ h => ⟨h.selection.congr rfl, h.servo⟩)
    (fun _ _ h hs => sourcesOk_of_sameBut h.same hs (by decide)) hcore hs

theorem setTrimCore_sourcesOk (b : List Byte) {s : State} (hs : s.sourcesOk) : (setTrimCore b s).after.sourcesOk := by
  obtain h | ⟨-, h⟩ := setTrimCore_after b s
  · rwa [h]
  · rw [h]
    exact ⟨hs.selection.congr rfl, hs.servo⟩

/-! ### Every command -/

/-- An empty table with the servo in FREE. -/
theorem sourcesOk_of_empty {s : State} (h : s.sources = Vector.replicate 8 none) (hst : s.servo.st = .free) : s.sourcesOk := by
  have hget : ∀ (i : Fin 8) (a : SourceRec), a ∉ s.sources[i] := fun i a ha => by
    rw [h] at ha
    simp at ha
  have hno : ¬ s.hasSelected := fun ⟨i, a, ha, _⟩ => hget i a ha
  refine ⟨⟨fun i _ a ha => (hget i a ha).elim, fun i a ha => (hget i a ha).elim, fun i _ a ha => (hget i a ha).elim,
    fun i a ha => (hget i a ha).elim⟩, ?_⟩
  rw [State.servoFits, hst]
  exact .free fun _ => hno

theorem after_sourcesOk (c : Instr) {s : State} (hs : s.sourcesOk) : (c.after s).sourcesOk := by
  cases c with
  | coldReset => exact sourcesOk_of_empty rfl rfl
  | warmReset =>
    show (warmResetWhenDue s).sourcesOk
    unfold warmResetWhenDue
    split
    · exact sourcesOk_of_sameBut (settleTick_evolves _).same (sourcesOk_of_empty rfl rfl) (by decide)
    · exact hs
  | timingCopyIntake => exact intakeNext_sourcesOk hs
  | sourceTimeout i => exact sourceTimeout_sourcesOk i hs
  | holdoverExpired => exact expireHoldover_sourcesOk hs
  | stepTick inp =>
    rw [after_eq_of_exec (t := stepTick inp s) rfl, stepTick]
    split
    · exact hs
    · exact tickAll_sourcesOk inp hs
  | tick inp =>
    rw [after_eq_of_exec (t := tickAll inp s) rfl]
    exact tickAll_sourcesOk inp hs
  | clockLoss n inp =>
    rw [after_eq_of_exec (t := clockLoss n inp s) rfl]
    exact clockLoss_sourcesOk n inp hs
  | clockRestored => exact clockRestored_sourcesOk hs
  | restoreQualificationStart =>
    show (qualificationStart s).sourcesOk
    unfold qualificationStart
    split
    · rename_i h
      exact setClock_sourcesOk hs _ (by rw [h]; exact ⟨nofun, nofun⟩)
    · exact hs
  | restoreQualificationRestart =>
    show (qualificationRestart s).sourcesOk
    unfold qualificationRestart
    split
    · rename_i h
      exact setClock_sourcesOk hs _ (by rw [h]; exact ⟨nofun, nofun⟩)
    · exact hs
  | setTrim => exact serve_sourcesOk (fun b t ht => setTrimCore_sourcesOk b ht) hs
  | writeTable => exact serve_sourcesOk (fun b t ht => writeTableCore_keeps writeEntry_sourcesOk b ht) hs
  | _ => exact sourcesOk_of_sameBut (after_sameBut _ s) hs (by simp [Instr.changes])

/-- Settles O8: a rerun makes the table agree with its best record, and the servo's moves follow it. -/
theorem selectionMatchesServo : Obligations.SelectionMatchesServo := by
  intro s t hs h
  rw [← sourcesOk_iff] at hs ⊢
  exact step_keeps (P := State.sourcesOk) (fun _ _ h => ⟨h.selection.congr rfl, h.servo⟩)
    (fun c _ h => after_sourcesOk c h) hs h

end Sys2Proof.Machine
end

section
/-!
PROOFS. The event notifier (R203 to R206): what raising an event does, and how far its queue drops go.
-/

namespace Sys2Proof.Machine

/-! ### The event table -/

/-- The table of 11.5: a row for each group, the events of a row at their positions. -/
def eventTable : List (List Event) :=
  [[.lockGained, .lockLost, .holdoverEntered, .holdoverExpired, .timeStepped, .sourceChanged, .clockLoss, .clockRestored],
    [.realigned 0, .realigned 1, .realigned 2, .realigned 3, .realigned 4, .realigned 5, .realigned 6, .realigned 7],
    [.phaseAlarm 0, .phaseAlarm 1, .phaseAlarm 2, .phaseAlarm 3, .captureFull 0, .captureFull 1, .captureFull 2,
      .captureFull 3],
    [.residenceMiss, .queueDrop .n, .queueDrop .d, .labelOverrun 0, .labelOverrun 1, .bankSwitched, .oneshotDone,
      .oneshotMissed]]

/-- The event of a group's position. -/
def eventAt (i j : Nat) : Option Event := eventTable[i]?.bind fun row => row[j]?

theorem eventAt_of_event (e : Event) : eventAt e.group.val e.pos = some e := by
  cases e with
  | realigned n => revert n; decide
  | phaseAlarm n => revert n; decide
  | captureFull n => revert n; decide
  | labelOverrun m => revert m; decide
  | queueDrop p => cases p <;> rfl
  | _ => rfl

theorem event_of_eventAt {i j : Nat} {e : Event} (h : eventAt i j = some e) : e.group.val = i ∧ e.pos = j := by
  have hfinite : ∀ i : Fin 4, ∀ j : Fin 8, ∀ e ∈ eventAt i j, e.group.val = i.val ∧ e.pos = j.val := by decide
  obtain ⟨row, hrow, hj⟩ := Option.bind_eq_some_iff.mp h
  obtain ⟨hi, hget⟩ := List.getElem?_eq_some_iff.mp hrow
  obtain ⟨hj, -⟩ := List.getElem?_eq_some_iff.mp hj
  have hlen : ∀ row ∈ eventTable, row.length = 8 := by decide
  have hrowlen : row.length = 8 := hlen row (hget ▸ List.getElem_mem hi)
  exact hfinite ⟨i, hi⟩ ⟨j, hrowlen ▸ hj⟩ e h

theorem eventAt_eq_some {i j : Nat} {e : Event} : eventAt i j = some e ↔ e.group.val = i ∧ e.pos = j :=
  ⟨event_of_eventAt, fun ⟨hi, hj⟩ => by rw [← hi, ← hj, eventAt_of_event]⟩

/-- Two events with the same group and position are one. -/
theorem event_ext {e f : Event} (hg : e.group = f.group) (hp : e.pos = f.pos) : e = f := by
  have h := eventAt_of_event e
  rw [hg, hp, eventAt_of_event f] at h
  exact (Option.some.inj h).symm

theorem event_pos_lt (e : Event) : e.pos < 8 := by
  cases e with
  | realigned n => exact n.isLt
  | phaseAlarm n => exact n.isLt.trans (by decide)
  | captureFull n => exact Nat.add_lt_add_left n.isLt 4
  | labelOverrun m => exact (Nat.add_lt_add_left m.isLt 3).trans (by decide)
  | queueDrop p => cases p <;> decide
  | _ => decide

/-! ### The pending flags -/

/-- The pending masks are the same. -/
def State.samePending (s t : State) : Prop := ∀ g : Fin 4, t.groups[g].pending = s.groups[g].pending

theorem State.samePending.isPending {s t : State} (h : s.samePending t) (e : Event) : t.isPending e = s.isPending e := by
  rw [State.isPending, State.isPending, h]

theorem State.samePending.refl (s : State) : s.samePending s := fun _ => rfl

theorem State.samePending.trans {s t u : State} (h : s.samePending t) (k : t.samePending u) : s.samePending u := fun g =>
  (k g).trans (h g)

theorem samePending_of_groups {s t : State} (h : t.groups = s.groups) : s.samePending t := fun g => by rw [h]

theorem setGroup_samePending {s : State} {g : Fin 4} {x : Group} (h : x.pending = s.groups[g].pending) :
    s.samePending (s.setGroup g x) := fun i => by
  rw [State.setGroup_get]
  split
  · rename_i hi
    rw [hi, h]
  · rfl

theorem setGroup_st_samePending (s : State) (g : Fin 4) (st : GroupState) :
    s.samePending (s.setGroup g { s.groups[g] with st := st }) := setGroup_samePending rfl

theorem setGroup_reported_samePending (s : State) (g : Fin 4) (b : Bool) :
    s.samePending (s.setGroup g { s.groups[g] with reported := b }) := setGroup_samePending rfl

/-- The state with the flag of an event set. -/
def State.marked (s : State) (e : Event) : State :=
  s.setGroup e.group { s.groups[e.group] with pending := s.groups[e.group].pending ||| posMask e.pos }

theorem posMask_getLsbD (p q : Nat) (hq : q < 8) : (posMask p).getLsbD q = decide (p = q) := by
  simp only [posMask, BitVec.getLsbD_shiftLeft, BitVec.getLsbD_one]
  by_cases h : p = q
  · simp [h, hq]
  · simp only [h, decide_false]
    by_cases hlt : q < p
    · simp [hlt]
    · simp only [hlt, decide_false, Bool.not_false, Bool.and_true, Bool.and_eq_false_iff, decide_eq_false_iff_not]
      omega

theorem marked_isPending (s : State) (e f : Event) : (s.marked e).isPending f = (s.isPending f || decide (e = f)) := by
  simp only [State.isPending, State.marked, State.setGroup_get]
  by_cases hg : f.group = e.group
  · rw [if_pos hg]
    simp only [BitVec.getLsbD_or, posMask_getLsbD _ _ (event_pos_lt f), hg]
    congr 1
    exact decide_eq_decide.mpr ⟨fun hp => event_ext hg.symm hp, fun h => by rw [h]⟩
  · rw [if_neg hg]
    have hne : e ≠ f := fun h => hg (by rw [h])
    simp [hne]

theorem marked_isEnabled (s : State) (e f : Event) : (s.marked e).isEnabled f = s.isEnabled f := rfl

/-- Flags set stay set, and of the others at most those in `E` are set. -/
def State.flagsFrom (E : Event → Prop) (s t : State) : Prop :=
  (∀ f, s.isPending f = true → t.isPending f = true) ∧ ∀ f, ¬ E f → t.isPending f = s.isPending f

theorem State.flagsFrom.trans {E : Event → Prop} {s t u : State} (h : s.flagsFrom E t) (k : t.flagsFrom E u) :
    s.flagsFrom E u := ⟨fun f hf => k.1 f (h.1 f hf), fun f hf => (k.2 f hf).trans (h.2 f hf)⟩

theorem State.samePending.flagsFrom {s t : State} (h : s.samePending t) (E : Event → Prop) : s.flagsFrom E t :=
  ⟨fun f hf => (h.isPending f).trans hf, fun f _ => h.isPending f⟩

/-! ### How deep an event goes -/

theorem setPort_samePending (s : State) (p : Port) (x : PortState) : s.samePending (s.setPort p x) :=
  samePending_of_groups (State.setPort_groups _ _ _)

/-- What a group does goes by `drop` only at the QUEUE_DROP of a state with the same flags. -/
theorem groupActWith_congr {d d' : Event → State → State} {g : Fin 4} {s : State}
    (h : ∀ q t, s.samePending t → d (.queueDrop q) t = d' (.queueDrop q) t) : groupActWith d g s = groupActWith d' g s := by
  have harrive : ∀ p e (t : State), s.samePending t → arriveWith d p .ordinary e t = arriveWith d' p .ordinary e t :=
    fun p e t ht => by
      unfold arriveWith
      dsimp only
      rw [h p t ht]
  have hnotify : ∀ dst (t : State), s.samePending t → notifyWith d g dst t = notifyWith d' g dst t := fun dst t ht =>
    harrive _ _ _ (ht.trans (samePending_of_groups rfl))
  unfold groupActWith
  split
  · rfl
  · split
    · exact hnotify _ _ (.refl s)
    · exact hnotify _ _ (setGroup_st_samePending _ _ _)
  · rfl

theorem raiseDepth_of_pending (n : Nat) {e : Event} {s : State} (h : s.isPending e = true) : raiseDepth n e s = s := by
  cases n with
  | zero => rfl
  | succ n => exact if_pos h

theorem raiseDepth_succ (n : Nat) {e : Event} {s : State} (h : s.isPending e = false) :
    raiseDepth (n + 1) e s =
      if s.isEnabled e then groupActWith (raiseDepth n) e.group (s.marked e) else s.marked e := by
  have hno : ¬ s.isPending e = true := by simp [h]
  exact if_neg hno

/-- With the QUEUE_DROP of every other port pending, one level is all. -/
theorem raiseDepth_last (n : Nat) {p : Port} {s : State} (h : ∀ q, q ≠ p → s.isPending (.queueDrop q) = true) :
    raiseDepth (n + 1) (.queueDrop p) s = raiseDepth 1 (.queueDrop p) s := by
  cases hp : s.isPending (.queueDrop p) with
  | true => rw [raiseDepth_of_pending _ hp, raiseDepth_of_pending _ hp]
  | false =>
    have hall : ∀ q t, (s.marked (.queueDrop p)).samePending t → t.isPending (.queueDrop q) = true := fun q t ht => by
      rw [ht.isPending, marked_isPending]
      by_cases hq : q = p
      · simp [hq]
      · simp [h q hq]
    rw [raiseDepth_succ _ hp, raiseDepth_succ _ hp]
    refine if_congr Iff.rfl (groupActWith_congr fun q t ht => ?_) rfl
    rw [raiseDepth_of_pending _ (hall q t ht), raiseDepth_of_pending _ (hall q t ht)]

/-- A QUEUE_DROP goes no deeper than two levels: each level sets the flag of another port. -/
theorem raiseDepth_queueDrop (n : Nat) (p : Port) (s : State) :
    raiseDepth (n + 2) (.queueDrop p) s = raiseDepth 2 (.queueDrop p) s := by
  cases hp : s.isPending (.queueDrop p) with
  | true => rw [raiseDepth_of_pending _ hp, raiseDepth_of_pending _ hp]
  | false =>
    rw [raiseDepth_succ _ hp, raiseDepth_succ _ hp]
    refine if_congr Iff.rfl (groupActWith_congr fun q t ht => ?_) rfl
    by_cases hq : q = p
    · have hpend : t.isPending (.queueDrop q) = true := by
        rw [ht.isPending, marked_isPending, hq]
        simp
      rw [raiseDepth_of_pending _ hpend, raiseDepth_of_pending _ hpend]
    · refine raiseDepth_last n fun r hr => ?_
      have hrp : r = p := by cases p <;> cases q <;> cases r <;> simp_all
      rw [ht.isPending, marked_isPending, hrp]
      simp

/-- Raising an event, one level unfolded: a queue drop that the notification meets is raised like any event. -/
theorem raise_eq (e : Event) (s : State) :
    raise e s =
      if s.isPending e then s
      else if s.isEnabled e then groupActWith raise e.group (s.marked e) else s.marked e := by
  cases hp : s.isPending e with
  | true => exact raise_of_pending e s hp
  | false =>
    rw [raise, raiseDepth_succ _ hp]
    refine Eq.trans ?_ (if_neg Bool.false_ne_true).symm
    refine if_congr Iff.rfl (groupActWith_congr fun q t _ => ?_) rfl
    exact (raiseDepth_queueDrop 1 q t).trans (raiseDepth_queueDrop 2 q t).symm

/-- The events that raising `e` can set: itself, and the queue drops of its notifications. -/
def Event.orDrop (e f : Event) : Prop := f = e ∨ ∃ p, f = .queueDrop p

theorem raiseDepth_flags (n : Nat) (E : Event → Prop) (hdrop : ∀ p, E (.queueDrop p)) :
    ∀ (e : Event) (s : State), E e → s.flagsFrom E (raiseDepth n e s) := by
  induction n with
  | zero => exact fun e s _ => (State.samePending.refl s).flagsFrom E
  | succ n ih =>
    intro e s he
    have harrive : ∀ p x (t : State), t.flagsFrom E (arriveWith (raiseDepth n) p .ordinary x t) := fun p x t => by
      unfold arriveWith
      dsimp only
      split
      · exact (State.samePending.refl t).flagsFrom E
      · split
        · exact (setPort_samePending _ _ _).flagsFrom E
        · exact ih _ _ (hdrop p)
    have hnotify : ∀ g dst (t : State), t.flagsFrom E (notifyWith (raiseDepth n) g dst t) := fun g dst t =>
      ((samePending_of_groups rfl : t.samePending { t with notifySeq := t.notifySeq + 1 }).flagsFrom E).trans (harrive _ _ _)
    have hact : ∀ g (t : State), t.flagsFrom E (groupActWith (raiseDepth n) g t) := fun g t => by
      unfold groupActWith
      split
      · exact (State.samePending.refl t).flagsFrom E
      · split
        · exact hnotify _ _ _
        · exact ((setGroup_st_samePending t g _).flagsFrom E).trans (hnotify _ _ _)
      · exact (setGroup_reported_samePending t g _).flagsFrom E
    have hmark : s.flagsFrom E (s.marked e) := by
      refine ⟨fun f hf => by rw [marked_isPending, hf, Bool.true_or], fun f hf => ?_⟩
      have hne : e ≠ f := fun h => hf (h ▸ he)
      rw [marked_isPending]
      simp [hne]
    cases hp : s.isPending e with
    | true =>
      rw [raiseDepth_of_pending _ hp]
      exact (State.samePending.refl s).flagsFrom E
    | false =>
      rw [raiseDepth_succ _ hp]
      split
      · exact hmark.trans (hact _ _)
      · exact hmark

theorem raise_flags (e : Event) (s : State) : s.flagsFrom e.orDrop (raise e s) :=
  raiseDepth_flags 4 e.orDrop (fun p => .inr ⟨p, rfl⟩) e s (.inl rfl)

theorem raise_keeps_isPending (e : Event) {s : State} {f : Event} (h : s.isPending f = true) :
    (raise e s).isPending f = true := (raise_flags e s).1 f h

theorem raise_isPending_self (e : Event) (s : State) : (raise e s).isPending e = true := by
  have hnotify : ∀ g dst (t : State), t.isPending e = true → (notifyWith raise g dst t).isPending e = true := fun g dst t ht => by
    have hseq : State.isPending { t with notifySeq := t.notifySeq + 1 } e = true := ht
    unfold notifyWith arriveWith
    dsimp only
    split
    · exact hseq
    · split
      · exact ((setPort_samePending _ _ _).isPending e).trans hseq
      · exact raise_keeps_isPending _ hseq
  have hmark : (s.marked e).isPending e = true := by
    rw [marked_isPending]
    simp
  rw [raise_eq]
  split
  · assumption
  · split
    · unfold groupActWith
      split
      · exact hmark
      · split
        · exact hnotify _ _ _ hmark
        · exact hnotify _ _ _ (((setGroup_st_samePending _ _ _).isPending e).trans hmark)
      · exact ((setGroup_reported_samePending _ _ _).isPending e).trans hmark
    · exact hmark

theorem raiseIf_keeps_isPending (c : Bool) (e : Event) {s : State} {f : Event} (h : s.isPending f = true) :
    (raiseIf c e s).isPending f = true := by
  cases c
  · exact h
  · exact raise_keeps_isPending e h

/-- Settles O12. -/
theorem raisedEventIsPending : Obligations.RaisedEventIsPending := by
  intro e s
  refine ⟨raise_of_pending e s, raise_isPending_self e s, fun f hf => raise_keeps_isPending e hf, fun f hne hdrop => ?_,
    fun hp he => ?_, raise_frame e s, rfl, rfl, fun i j => eventAt_eq_some⟩
  · refine (raise_flags e s).2 f fun h => ?_
    obtain h | ⟨p, h⟩ := h
    · exact hne h
    · exact hdrop p h
  · rw [raise_eq, if_neg (by simp [hp]), if_neg (by simp [he])]
    rfl

/-! ### Notifications -/

/-- An arrival at the ordinary-class queue, by the link state and the room of the port (R8). -/
theorem arrive_ordinary_of_room {p : Port} {e : EgressEntry} {s : State} (hl : (s.port p).link = .up)
    (hq : (s.port p).ordinaryQ.length < 32) :
    arrive p .ordinary e s = s.setPort p { s.port p with ordinaryQ := (s.port p).ordinaryQ ++ [e] } := by
  have hdown : ¬ (s.port p).link = .down := by rw [hl]; nofun
  exact (if_neg hdown).trans (if_pos hq)

theorem arrive_of_down {p : Port} {c : TClass} {e : EgressEntry} {s : State} (hl : (s.port p).link = .down) :
    arrive p c e s = s := if_pos hl

theorem arrive_ordinary_of_full {p : Port} {e : EgressEntry} {s : State} (hl : (s.port p).link = .up)
    (hq : 32 ≤ (s.port p).ordinaryQ.length) : arrive p .ordinary e s = raise (.queueDrop p) s := by
  have hdown : ¬ (s.port p).link = .down := by rw [hl]; nofun
  exact (if_neg hdown).trans (if_neg (not_lt.mpr hq))

theorem State.setGroup_setGroup (s : State) (g : Fin 4) (x y : Group) : (s.setGroup g x).setGroup g y = s.setGroup g y := by
  simp [State.setGroup]

theorem State.setGroup_get_self (s : State) (g : Fin 4) (x : Group) : (s.setGroup g x).groups[g] = x := by
  rw [State.setGroup_get, if_pos rfl]

theorem State.setGroup_self (s : State) (g : Fin 4) : s.setGroup g s.groups[g] = s := by
  rw [State.setGroup]
  have h : s.groups.set g.val s.groups[g] g.isLt = s.groups := Vector.set_getElem_self g.isLt
  rw [h]

theorem State.setGroup_port (s : State) (g : Fin 4) (x : Group) (p : Port) : (s.setGroup g x).port p = s.port p := rfl

/-- The three fates of a notification of group `g`, composed after the group became `y` (R205). -/
theorem notify_cases (s : State) (g : Fin 4) (d : Addr) (y : Group) :
    let c := s.notifyCfg[g]
    let s2 : State := { s.setGroup g y with notifySeq := s.notifySeq + 1 }
    ((s.port c.egress).link = .up → (s.port c.egress).ordinaryQ.length < 32 →
      notifyWith raise g d (s.setGroup g y) =
        s2.setPort c.egress
          { s.port c.egress with
            ordinaryQ :=
              (s.port c.egress).ordinaryQ ++ [{ bytes := notifyFrame g d (s.setGroup g y), origin := .notification }] }) ∧
      ((s.port c.egress).link = .down → notifyWith raise g d (s.setGroup g y) = s2) ∧
      ((s.port c.egress).link = .up → 32 ≤ (s.port c.egress).ordinaryQ.length →
        notifyWith raise g d (s.setGroup g y) = raise (.queueDrop c.egress) s2) :=
  ⟨fun hl hq => arrive_ordinary_of_room hl hq, fun hl => arrive_of_down hl, fun hl hq => arrive_ordinary_of_full hl hq⟩

theorem timeBytes_of_ok {t : TimeVal} (hs : t.sec < 2 ^ 48) (hn : t.ns < 10 ^ 9) :
    timeBytes t.totalNs = beBytes 6 t.sec ++ beBytes 4 t.ns := by
  have hdiv : t.totalNs / 10 ^ 9 = t.sec := by
    unfold TimeVal.totalNs
    omega
  have hmod : t.totalNs % 10 ^ 9 = t.ns := by
    unfold TimeVal.totalNs
    omega
  simp only [timeBytes, hdiv, hmod, if_pos hs]

theorem notifyFrame_eq {g : Fin 4} {d : Addr} {s : State} (hs : s.timeOk) :
    notifyFrame g d s =
      addrBytes d ++ addrBytes s.station ++ [0x9A, 0x3C, 1, 3] ++ beBytes 2 s.notifySeq.toNat ++ [0, 0, 0, 13] ++
        [BitVec.ofNat 8 g, s.groups[g].pending, s.notifyCfg[g].enable] ++ beBytes 6 s.time.sec ++ beBytes 4 s.time.ns ++
        List.replicate 25 0 := by
  obtain ⟨hsec, hns⟩ := hs
  have hlen : (beBytes 2 13 : List Byte) = [0, 13] := by decide
  simp only [notifyFrame, mgmtFrame, padded, tagBytes, timeBytes_of_ok hsec hns, List.length_append, List.length_cons,
    beBytes_length, addrBytes, hlen, List.append_assoc, List.cons_append, List.nil_append]
  rfl

theorem groupActWith_of_no_dest {g : Fin 4} {s : State} (hst : s.groups[g].st = .idle) (hd : s.notifyCfg[g].dest = none) :
    groupActWith raise g s = s := by
  simp only [groupActWith, hst, hd]

theorem groupActWith_of_dest {g : Fin 4} {s : State} {d : Addr} (hst : s.groups[g].st = .idle)
    (hd : s.notifyCfg[g].dest = some d) :
    groupActWith raise g s =
      notifyWith raise g d
        (s.setGroup g
          { s.groups[g] with
            st := if s.notifyCfg[g].holdoff = 0 then .idle else .holdoff s.elapsed s.notifyCfg[g].holdoff }) := by
  simp only [groupActWith, hst, hd]
  split
  · rw [← hst, State.setGroup_self]
  · rfl

theorem groupActWith_of_holdoff {g : Fin 4} {s : State} {start : Elapsed} {ms : Nat} (hst : s.groups[g].st = .holdoff start ms) :
    groupActWith raise g s = s.setGroup g { s.groups[g] with reported := true } := by
  simp only [groupActWith, hst]

theorem marked_group (s : State) (e : Event) :
    (s.marked e).groups[e.group] =
      { s.groups[e.group] with pending := s.groups[e.group].pending ||| (1#8 <<< e.pos) } := State.setGroup_get_self _ _ _

/-- Settles O13: the group of the event acts on the state with the flag set. -/
theorem enabledEventNotifies : Obligations.EnabledEventNotifies := by
  intro e s hp he
  have hraise : raise e s = groupActWith raise e.group (s.marked e) := by
    rw [raise_eq, if_neg (by simp [hp]), if_pos he]
  have hmst : (s.marked e).groups[e.group].st = s.groups[e.group].st := by rw [marked_group]
  refine ⟨fun hst hd => ?_, fun d hst hd => ?_, fun start ms hst => ?_, fun d hs => notifyFrame_eq hs⟩
  · rw [hraise, groupActWith_of_no_dest (hmst.trans hst) hd]
    rfl
  · have hact : raise e s =
        notifyWith raise e.group d
          (s.setGroup e.group
            { s.groups[e.group] with
              pending := s.groups[e.group].pending ||| (1#8 <<< e.pos)
              st := if s.notifyCfg[e.group].holdoff = 0 then .idle else .holdoff s.elapsed s.notifyCfg[e.group].holdoff }) := by
      rw [hraise, groupActWith_of_dest (hmst.trans hst) hd, marked_group, State.marked, State.setGroup_setGroup,
        State.setGroup_notifyCfg, State.setGroup_elapsed]
    rw [hact]
    exact notify_cases s e.group d _
  · rw [hraise, groupActWith_of_holdoff (hmst.trans hst), marked_group, State.marked, State.setGroup_setGroup]

/-! ### The end of a holdoff and CLEAR_EVENTS -/

theorem finOf_of_lt {n i : Nat} (h : i < n) : finOf n i = some ⟨i, h⟩ := dif_pos h

theorem finOf_val {n : Nat} (i : Fin n) : finOf n i.val = some i := finOf_of_lt i.isLt

theorem finOf_of_le {n i : Nat} (h : n ≤ i) : finOf n i = none := dif_neg (not_lt.mpr h)

theorem endHoldoff_of_idle {g : Fin 4} {s : State} (h : s.groups[g].st = .idle) : endHoldoff g s = s := by
  simp only [endHoldoff, h]

theorem endHoldoff_of_early {g : Fin 4} {s : State} {start : Elapsed} {ms : Nat} (h : s.groups[g].st = .holdoff start ms)
    (hle : s.since start ≤ ms * unitsPerMs) : endHoldoff g s = s := by
  simp only [endHoldoff, h, if_pos hle]

theorem endHoldoff_of_reported {g : Fin 4} {s : State} {start : Elapsed} {ms : Nat} {d : Addr}
    (h : s.groups[g].st = .holdoff start ms) (hlt : ms * unitsPerMs < s.since start) (hr : s.groups[g].reported = true)
    (hd : s.notifyCfg[g].dest = some d) :
    endHoldoff g s =
      notifyWith raise g d
        (s.setGroup g { s.groups[g] with st := .holdoff s.elapsed s.notifyCfg[g].holdoff, reported := false }) := by
  simp only [endHoldoff, h, if_neg (not_le.mpr hlt), hr, hd]

theorem endHoldoff_of_quiet {g : Fin 4} {s : State} {start : Elapsed} {ms : Nat} (h : s.groups[g].st = .holdoff start ms)
    (hlt : ms * unitsPerMs < s.since start) (hr : s.groups[g].reported = false ∨ s.notifyCfg[g].dest = none) :
    endHoldoff g s = s.setGroup g { s.groups[g] with st := .idle, reported := false } := by
  simp only [endHoldoff, h, if_neg (not_le.mpr hlt)]
  obtain hr | hd := hr
  · simp only [hr]
  · simp only [hd]
    cases s.groups[g].reported <;> rfl

/-- Settles O14. -/
theorem holdoffEndsAndEventsClear : Obligations.HoldoffEndsAndEventsClear := by
  refine ⟨fun g s h => ?_, fun g s start ms hst hlt => ⟨fun d hr hd => ?_, fun h => ?_⟩, fun s r rest hc =>
    ⟨fun g hg => ?_, fun hg => ?_⟩⟩
  · obtain h | ⟨start, ms, h, hle⟩ := h
    · exact congrArg Host.Outcome.next (endHoldoff_of_idle h)
    · exact congrArg Host.Outcome.next (endHoldoff_of_early h hle)
  · have hend := endHoldoff_of_reported hst hlt hr hd
    obtain ⟨hroom, hdown, hfull⟩ := notify_cases s g d
      { s.groups[g] with st := .holdoff s.elapsed s.notifyCfg[g].holdoff, reported := false }
    exact ⟨fun hl hq => congrArg Host.Outcome.next (hend.trans (hroom hl hq)),
      fun hl => congrArg Host.Outcome.next (hend.trans (hdown hl)),
      fun hl hq => congrArg Host.Outcome.next (hend.trans (hfull hl hq))⟩
  · exact congrArg Host.Outcome.next (endHoldoff_of_quiet hst hlt h)
  · refine congrArg Host.Outcome.next ((serve_carriesOut _ _ _ _ _ hc).trans ?_)
    rw [clearEventsCore, hg, finOf_val]
  · refine congrArg Host.Outcome.next ((serve_carriesOut _ _ _ _ _ hc).trans ?_)
    rw [clearEventsCore, finOf_of_le hg]
    rfl

end Sys2Proof.Machine
end

section
/-!
PROOFS. A rerun of selection (R64, R65), and the records that join and leave the residence table, the pending-probe list
and the source table (R42, R45, R57 to R61, R80, R81).
-/

namespace Sys2Proof.Machine

/-! ### A rerun -/

theorem probeStep_eq (s : State) : s.probeStep = BitVec.ofNat 64 (16000000000 * 2 ^ (s.servoCfg.probeCode + 4).toNat) := by
  have h : probeInterval s.servoCfg.probeCode = 16000000000 * 2 ^ (s.servoCfg.probeCode + 4).toNat := by
    unfold probeInterval unitsPerSecond
    omega
  rw [State.probeStep, h]

/-- The exchange unit after a change of selection (R86): cleared, the schedule based on the new selection, the sequence
counter and the step boundary kept. -/
theorem exchangeSourceChange_eq (now : Option SourceName) (s : State) :
    exchangeSourceChange now s =
      { s with
        exch :=
          { Exchange.reset with
            sched :=
              if now = none then .stopped
              else .timed (s.elapsed + BitVec.ofNat 64 (16000000000 * 2 ^ (s.servoCfg.probeCode + 4).toNat)) s.elapsed
            probeSeq := s.exch.probeSeq
            boundary := s.exch.boundary } } := by
  rw [exchangeSourceChange, scheduleFromNow, probeStep_eq]

theorem servoSelection_keeps_isPending (now : Option SourceName) {s : State} {f : Event} (h : s.isPending f = true) :
    (servoSelection now s).isPending f = true := by
  have hlocked : ∀ t : State, t.isPending f = true → (clearLocked t).isPending f = true := fun t ht =>
    raiseIf_keeps_isPending _ _ ht
  have hacquire : ∀ fresh, (enterAcquire fresh s).isPending f = true := fun _ => hlocked _ h
  unfold servoSelection
  split
  · split
    · exact hacquire true
    · exact h
  · exact h
  · exact h
  · exact h
  · exact hacquire false
  · split
    · exact raise_keeps_isPending _ (hlocked _ h)
    · exact h
  · exact hacquire true
  · exact h

/-- Settles O27. -/
theorem rerunSelectsBestSource : Obligations.RerunSelectsBestSource := by
  intro old s hnames
  refine ⟨fun b hb => ?_, fun hb => bestEligible_none.mp hb, ?_, ?_, rerunSelection_sources old s, fun i => ⟨fun hi => ?_, fun r hr => ?_⟩,
    fun h => ?_, fun h => ?_⟩
  · obtain ⟨hmem, hst, hmin⟩ := bestEligible_some hb
    refine ⟨hmem, hst, fun r hr hre => ?_⟩
    rw [Bool.eq_false_iff, ne_eq, SourceRec.better_iff_rankKey_lt]
    exact not_lt.mpr (hmin r hr hre)
  · have hsel : (rerunSelection old s).selectedName = s.flagged.selectedName := by
      simp only [State.selectedName, State.selected, rerunSelection_sources]
    exact hsel.trans flagged_selectedName
  · exact ((selectionOk_iff _).mp (rerunSelection_selectionOk old hnames)).2.1
  · rw [rerunSelection_sources, flagged_get, hi]
    rfl
  · rw [rerunSelection_sources, flagged_get, hr]
    exact ⟨_, rfl⟩
  · rw [rerunSelection_eq, if_pos h]
  · have ht : rerunSelection old s = servoSelection s.bestName (exchangeSourceChange s.bestName (raise .sourceChanged s.flagged)) := by
      rw [rerunSelection_eq, if_neg h]
      rfl
    have hcleared : (exchangeSourceChange s.bestName (raise .sourceChanged s.flagged)).exch =
        { Exchange.reset with
          sched :=
            if s.bestName = none then .stopped
            else .timed (s.elapsed + BitVec.ofNat 64 (16000000000 * 2 ^ (s.servoCfg.probeCode + 4).toNat)) s.elapsed
          probeSeq := s.exch.probeSeq
          boundary := s.exch.boundary } := by
      rw [exchangeSourceChange_eq, raise_exch, raise_elapsed, raise_servoCfg]
    have hexch : exchangeSourceChange s.bestName (raise .sourceChanged s.flagged) =
        { raise .sourceChanged s.flagged with exch := (exchangeSourceChange s.bestName (raise .sourceChanged s.flagged)).exch } := by
      rw [exchangeSourceChange_eq]
    refine ⟨?_, ?_, ?_⟩
    · rw [ht]
      exact servoSelection_keeps_isPending _ (raise_isPending_self .sourceChanged s.flagged)
    · have hkept : (rerunSelection old s).exch = (exchangeSourceChange s.bestName (raise .sourceChanged s.flagged)).exch := by
        rw [ht]
        exact (servoSelection_evolves _ _).same .exch (by decide)
      rw [hkept, hcleared]
    · rw [ht, hexch, hcleared]

/-! ### Records that join -/

theorem pushNewest_of_full {α : Type} {cap : Nat} {x : α} {xs : List α} (h : xs.length = cap) (hpos : 0 < cap) :
    pushNewest cap x xs = xs.tail ++ [x] := by
  cases xs with
  | nil => exact absurd h (Nat.ne_of_lt hpos)
  | cons y ys =>
    rw [pushNewest, ← h]
    simp

/-- The list without the records of a key, when just one has it. -/
theorem filter_key_eq_append {α : Type} {p : α → Bool} {a b : List α} {x : α} (hx : p x = true)
    (hrest : ∀ y ∈ a ++ b, p y = false) : ((a ++ x :: b).filter fun y => !p y) = a ++ b := by
  have ha : (a.filter fun y => !p y) = a := List.filter_eq_self.mpr fun y hy => by
    rw [hrest y (List.mem_append_left _ hy)]
    rfl
  have hb : (b.filter fun y => !p y) = b := List.filter_eq_self.mpr fun y hy => by
    rw [hrest y (List.mem_append_right _ hy)]
    rfl
  rw [List.filter_append, List.filter_cons, hx, ha, hb]
  rfl

/-- How a record joins a table whose records of its key are removed first. -/
theorem pushNewest_filter_cases {α : Type} (cap : Nat) (hpos : 0 < cap) (p : α → Bool) (r : α) (t : List α) :
    ((∀ x ∈ t, p x = false) → t.length < cap → pushNewest cap r (t.filter fun x => !p x) = t ++ [r]) ∧
      ((∀ x ∈ t, p x = false) → t.length = cap → pushNewest cap r (t.filter fun x => !p x) = t.tail ++ [r]) ∧
      ∀ a x b, t = a ++ x :: b → t.length ≤ cap → p x = true → (∀ y ∈ a ++ b, p y = false) →
        pushNewest cap r (t.filter fun x => !p x) = a ++ b ++ [r] := by
  have hall : (∀ x ∈ t, p x = false) → (t.filter fun x => !p x) = t := fun h => List.filter_eq_self.mpr fun x hx => by
    rw [h x hx]
    rfl
  refine ⟨fun h hl => ?_, fun h hl => ?_, fun a x b ht hl hx hrest => ?_⟩
  · rw [hall h, pushNewest_of_room _ _ _ hl]
  · rw [hall h, pushNewest_of_full hl hpos]
  · subst ht
    rw [filter_key_eq_append hx hrest, pushNewest_of_room]
    simp only [List.length_append, List.length_cons] at hl ⊢
    omega

/-! ### Records that leave -/

theorem pastBy_iff {s : State} {r : Elapsed} {n : Nat} :
    s.pastBy r n = true ↔ n < (s.elapsed - r).toNat ∧ (s.elapsed - r).toNat < 2 ^ 63 := by
  rw [State.pastBy, Bool.and_eq_true, decide_eq_true_iff, decide_eq_true_iff]
  rfl

/-- The timeout of R61 as a whole number of units: 2^−7 s is 2,000,000,000 of them. -/
theorem timeoutUnits_eq (m : Nat) (c : Int) :
    timeoutUnits m c = m * (2000000000 * 2 ^ (max (-7) (min 7 c) + 7).toNat) := by
  unfold timeoutUnits unitsPerSecond clamp
  congr 1
  omega

theorem timedOut_iff {s : State} {r : SourceRec} :
    timedOut s r = true ↔
      s.servoCfg.multiple * (2000000000 * 2 ^ (max (-7) (min 7 r.interval) + 7).toNat) < (s.elapsed - r.lastHeard).toNat := by
  rw [timedOut, timeoutUnits_eq, decide_eq_true_iff]
  rfl

/-- Settles O24. -/
theorem recordsJoinAndLeave : Obligations.RecordsJoinAndLeave := by
  refine ⟨fun r t => pushNewest_filter_cases 8 (by decide) (fun x => x.sameKey r) r t, fun q t => ?_,
    fun i s r hr => ⟨fun h1 h2 => ?_, fun h => ?_⟩, fun i s q hq => ⟨fun h1 h2 => ?_, fun h => ?_⟩,
    fun i s r hr => ⟨fun h hsel => ?_, fun h hsel => ?_, fun h => ?_⟩⟩
  · have hkey : ∀ x : PendingProbe, x.seq ≠ q.seq ↔ (x.seq == q.seq) = false := fun x => by simp
    have heq : ∀ x : PendingProbe, x.seq = q.seq ↔ (x.seq == q.seq) = true := fun x => by simp
    simp only [hkey]
    simp only [heq]
    exact pushNewest_filter_cases 4 (by decide) (fun x => x.seq == q.seq) q t
  · refine congrArg Host.Outcome.next ?_
    simp only [ageResidence, hr]
    exact if_pos (pastBy_iff.mpr ⟨h1, h2⟩)
  · refine congrArg Host.Outcome.next ?_
    simp only [ageResidence, hr]
    exact if_neg fun hp => not_lt.mpr h (pastBy_iff.mp hp).1
  · refine congrArg Host.Outcome.next ?_
    simp only [agePendingProbe, hq]
    exact if_pos (pastBy_iff.mpr ⟨h1, h2⟩)
  · refine congrArg Host.Outcome.next ?_
    simp only [agePendingProbe, hq]
    exact if_neg fun hp => not_lt.mpr h (pastBy_iff.mp hp).1
  · refine congrArg Host.Outcome.next ?_
    simp only [sourceTimeout, hr, timedOut_iff.mpr h, hsel, if_true]
    rfl
  · refine congrArg Host.Outcome.next ?_
    simp only [sourceTimeout, hr, timedOut_iff.mpr h, hsel, if_true]
    rfl
  · refine congrArg Host.Outcome.next ?_
    simp only [sourceTimeout, hr]
    exact if_neg fun ht => not_lt.mpr h (timedOut_iff.mp ht)

/-! ### The state after a cold reset -/

/-- Settles O3. -/
theorem resetMeetsInvariants : Obligations.ResetMeetsInvariants := by
  have hsources := (sourcesOk_iff State.reset).mp (sourcesOk_of_empty rfl rfl)
  obtain ⟨hnames, hone, hbest, hservo⟩ := hsources
  exact
    { time := ⟨by decide, by decide⟩
      ports := coldReset_portsOk State.reset
      requests := Nat.zero_le _
      residence := ⟨Nat.zero_le _, .nil⟩
      exchange := by decide
      adjust := adjustBound_closed.reset
      counts := countBound_closed.reset
      lock := by decide
      traced := by decide
      names := hnames
      one := hone
      best := hbest
      servoSource := hservo
      records := by decide +kernel
      cadences := by decide +kernel
      servoCfg := by decide
      small := reset_smallRecordsOk
      switch := switchOk_of_none rfl
      rings := by decide
      lines := by decide
      classify := fun _ => .inr (by show (Vector.replicate 32 ClassEntry.empty)[_] = _; simp)
      groups := reset_groupsOk
      clock := rfl
      view := viewOk_of_none rfl }

end Sys2Proof.Machine
end

section
/-!
PROOFS. The intake of the timing engine: Beacons (R57 to R60).
-/

namespace Sys2Proof.Machine

/-! ### The slot of a sender, and the lowest empty one -/

theorem find?_allSlots {p : Fin 8 → Bool} {i : Fin 8} (hi : p i = true) (hlow : ∀ j : Fin 8, j < i → p j = false) :
    allSlots.find? p = some i := by
  have hget : ∀ j : Fin 8, ∃ h : j.val < allSlots.length, allSlots[j.val] = j := by decide
  obtain ⟨hlt, hgi⟩ := hget i
  refine List.find?_eq_some_iff_getElem.mpr ⟨hi, i.val, hlt, hgi, fun k hk => ?_⟩
  obtain ⟨_, hgk⟩ := hget ⟨k, hk.trans i.isLt⟩
  rw [show allSlots[k] = ⟨k, hk.trans i.isLt⟩ from hgk, hlow _ hk]
  rfl

theorem slotOf_eq_none {s : State} {n : SourceName} (h : ∀ j : Fin 8, ∀ a ∈ s.sources[j], ¬ (a.sender = n.1 ∧ a.portNo = n.2)) :
    s.slotOf n = none := by
  cases hslot : s.slotOf n with
  | none => rfl
  | some i =>
    obtain ⟨a, ha, hname⟩ := slotOf_some hslot
    exact (h i a ha hname).elim

theorem slotOf_eq_some {s : State} {n : SourceName} {i : Fin 8} {r : SourceRec} (hr : s.sources[i] = some r)
    (hn : r.sender = n.1 ∧ r.portNo = n.2)
    (honly : ∀ j : Fin 8, ∀ a ∈ s.sources[j], a.sender = n.1 ∧ a.portNo = n.2 → j = i) : s.slotOf n = some i := by
  cases hslot : s.slotOf n with
  | none => exact (slotOf_none hslot i r hr hn).elim
  | some j =>
    obtain ⟨a, ha, hname⟩ := slotOf_some hslot
    rw [honly j a ha hname]

theorem emptySlot_eq_some {s : State} {i : Fin 8} (hi : s.sources[i] = none) (hlow : ∀ j : Fin 8, j < i → s.sources[j] ≠ none) :
    s.emptySlot = some i :=
  find?_allSlots (p := fun j : Fin 8 => s.sources[j].isNone) (Option.isNone_iff_eq_none.mpr hi) fun j hj =>
    Bool.eq_false_iff.mpr fun h => hlow j hj (Option.isNone_iff_eq_none.mp h)

theorem emptySlot_eq_none {s : State} (h : ∀ j : Fin 8, s.sources[j] ≠ none) : s.emptySlot = none :=
  List.find?_eq_none.mpr fun j _ hj => h j (Option.isNone_iff_eq_none.mp hj)

/-- The record that every other unselected one ranks better than is the worst of them (R59). -/
theorem worstOf_unselected {s : State} {i : Fin 8} {w : SourceRec} (hi : s.sources[i] = some w) (hsel : w.selected = false)
    (hbest : ∀ j : Fin 8, ∀ a ∈ s.sources[j], j ≠ i → a.selected = false → a.better w = true) :
    worstOf (s.records.filter fun r => !r.selected) = some w := by
  have hw : w ∈ s.records.filter fun r => !r.selected :=
    List.mem_filter.mpr ⟨mem_records.mpr ⟨i, hi⟩, by rw [hsel]; rfl⟩
  cases h : worstOf (s.records.filter fun r => !r.selected) with
  | none =>
    rw [worstOf_eq_argmax, List.argmax_eq_none] at h
    rw [h] at hw
    exact (List.not_mem_nil hw).elim
  | some a =>
    obtain ⟨hrec, ha⟩ := List.mem_filter.mp (mem_of_worstOf h)
    obtain ⟨j, hj⟩ := mem_records.mp hrec
    by_cases hji : j = i
    · subst hji
      rw [← hi, hj]
    · have hlt := (a.better_iff_rankKey_lt w).mp (hbest j a hj hji (by simpa using ha))
      exact absurd hlt (not_lt.mpr (rankKey_le_of_worstOf h hw))

/-! ### What a Beacon does to the source table -/

section
variable (content : List Byte) (pos : Nat) (h : Hdr) (st : Stamp) (s : State)

theorem takeBeacon_ignored (hno : 255 ≤ (recordOfBeacon content pos h st).hops.toNat ∨ h.sender = s.identity) :
    takeBeacon content pos h st s = s := if_pos hno

variable {s} (hyes : ¬ (255 ≤ (recordOfBeacon content pos h st).hops.toNat ∨ h.sender = s.identity))
include hyes

theorem takeBeacon_known {i : Fin 8} {r : SourceRec} (hslot : s.slotOf (h.sender, h.portNo) = some i)
    (hr : s.sources[i] = some r) :
    takeBeacon content pos h st s =
      if r.lastSeq = h.seq then s
      else
        if (r.st = .qualifying ∧ (refreshed r (recordOfBeacon content pos h st)).st = .eligible) ∨
            r.rerunKey ≠ (refreshed r (recordOfBeacon content pos h st)).rerunKey then
          rerunSelection s.selectedName (s.setSource i (some (refreshed r (recordOfBeacon content pos h st))))
        else s.setSource i (some (refreshed r (recordOfBeacon content pos h st))) := by
  simp only [takeBeacon, if_neg hyes, hslot, hr]

theorem takeBeacon_joins {i : Fin 8} (hslot : s.slotOf (h.sender, h.portNo) = none) (hempty : s.emptySlot = some i) :
    takeBeacon content pos h st s = s.setSource i (some (recordOfBeacon content pos h st)) := by
  simp only [takeBeacon, if_neg hyes, hslot, hempty]

theorem takeBeacon_displaces {i : Fin 8} {w : SourceRec} (hslot : s.slotOf (h.sender, h.portNo) = none)
    (hfull : s.emptySlot = none) (hworst : worstOf (s.records.filter fun r => !r.selected) = some w)
    (hw : s.slotOf (w.sender, w.portNo) = some i) :
    takeBeacon content pos h st s =
      if (recordOfBeacon content pos h st).better w then
        rerunSelection s.selectedName (s.setSource i (some (recordOfBeacon content pos h st)))
      else s := by
  simp only [takeBeacon, if_neg hyes, hslot, hfull, hworst, hw]

end

theorem refreshed_of_eligible {r b : SourceRec} (hr : r.st = .eligible) :
    refreshed r b = { b with count := min 65535 (r.count + 1), st := .eligible, selected := r.selected } := by
  rw [refreshed, hr, ite_self]

theorem refreshed_of_counted {r b : SourceRec} (hr : 1 ≤ r.count) :
    refreshed r b = { b with count := min 65535 (r.count + 1), st := .eligible, selected := r.selected } := by
  rw [refreshed, if_pos (by omega)]

theorem rerunKey_refreshed {r b : SourceRec} :
    r.rerunKey = (refreshed r b).rerunKey ↔ b.rankKey = r.rankKey ∧ b.civil = r.civil ∧ b.civilValid = r.civilValid := by
  have hkey : (refreshed r b).rerunKey = b.rerunKey := rfl
  rw [hkey]
  simp only [SourceRec.rerunKey, Prod.mk.injEq, eq_comm]

/-! ### The intake -/

theorem exec_timingCopyIntake (s : State) : exec .timingCopyIntake s = .next (intakeNext s) := rfl

section
variable {s : State} {c : Copy} {rest : List Copy} (hc : s.copies = c :: rest)
include hc

theorem intakeNext_cons :
    intakeNext s =
      if intakeOk s (readHdr (contentOf c.bytes) c.hdrPos) then
        if (readHdr (contentOf c.bytes) c.hdrPos).kind = kindBeacon then
          takeBeacon (contentOf c.bytes) c.hdrPos (readHdr (contentOf c.bytes) c.hdrPos) c.stamp { s with copies := rest }
        else exchangeTake c (readHdr (contentOf c.bytes) c.hdrPos) { s with copies := rest }
      else { s with copies := rest } := by
  simp only [intakeNext, hc]

theorem intakeNext_of_refused (h : intakeOk s (readHdr (contentOf c.bytes) c.hdrPos) = false) :
    intakeNext s = { s with copies := rest } := by
  rw [intakeNext_cons hc, h]
  rfl

end

/-- What the checks of R53 ask of a header of one of the four kinds that are used. -/
theorem intakeOk_iff {s : State} {h : Hdr} {m : Nat} (hm : minLength h.kind = some m) (hk : h.kind ≠ 4) :
    intakeOk s h = true ↔ m ≤ h.len ∧ h.domain = s.servoCfg.domain := by
  simp only [intakeOk, hm, Bool.and_eq_true, decide_eq_true_iff, beq_iff_eq]
  exact and_iff_left hk

theorem signedOf_sixteen (n : Nat) : signedOf 16 n = if n < 32768 then (n : Int) else (n : Int) - 65536 := rfl

/-- Settles O26. -/
theorem beaconsMakeAndRefreshRecords : Obligations.BeaconsMakeAndRefreshRecords := by
  intro s c rest hc content h b s1 put unknown hkind hlen hdom
  have htake : exec .timingCopyIntake s = .next (takeBeacon content c.hdrPos h c.stamp s1) := by
    have hok : intakeOk s h = true := (intakeOk_iff (by rw [hkind]; rfl) (by omega)).mpr ⟨hlen, hdom⟩
    rw [exec_timingCopyIntake, intakeNext_cons hc, if_pos hok, if_pos (c := (readHdr _ _).kind = kindBeacon) hkind]
  have hsays : ∀ {t : State}, takeBeacon content c.hdrPos h c.stamp s1 = t → exec .timingCopyIntake s = .next t :=
    fun ht => htake.trans (congrArg Host.Outcome.next ht)
  refine ⟨fun hno => hsays (takeBeacon_ignored _ _ _ _ _ hno), fun hhops hother => ?_⟩
  have hyes : ¬ (255 ≤ (recordOfBeacon content c.hdrPos h c.stamp).hops.toNat ∨ h.sender = s1.identity) :=
    not_or.mpr ⟨Nat.not_le.mpr hhops, hother⟩
  refine ⟨⟨rfl, rfl, rfl, rfl, rfl, rfl, rfl, rfl, rfl, rfl, rfl, rfl, rfl, rfl, rfl, rfl, signedOf_sixteen _⟩,
    fun i hunknown hi hlow => hsays ?_, fun i w hunknown hfull hi hsel hothers => ?_, fun i r hr hs hp honly => ?_⟩
  · exact takeBeacon_joins _ _ _ _ hyes (slotOf_eq_none hunknown) (emptySlot_eq_some hi hlow)
  · have hslot : s1.slotOf (w.sender, w.portNo) = some i := slotOf_eq_some hi ⟨rfl, rfl⟩ fun j a ha hname =>
      by_contra fun hji => (hothers j a ha hji).1 hname
    have hdisplace := takeBeacon_displaces content c.hdrPos h c.stamp hyes (slotOf_eq_none hunknown)
      (emptySlot_eq_none hfull) (worstOf_unselected hi hsel fun j a ha hji => (hothers j a ha hji).2) hslot
    exact ⟨fun hb => hsays (hdisplace.trans (if_pos hb)),
      fun hb => hsays (hdisplace.trans (if_neg (Bool.eq_false_iff.mp hb)))⟩
  · have hslot : s1.slotOf (h.sender, h.portNo) = some i := slotOf_eq_some hr ⟨hs, hp⟩ honly
    have hknown := takeBeacon_known content c.hdrPos h c.stamp hyes hslot hr
    refine ⟨fun hseq => hsays (hknown.trans (if_pos hseq)), fun hseq hst hsame => hsays ?_, fun hseq hst hsame => hsays ?_,
      fun hseq hst hcount => hsays ?_⟩
    · have hstays : ¬ ((r.st = .qualifying ∧ (refreshed r b).st = .eligible) ∨ r.rerunKey ≠ (refreshed r b).rerunKey) :=
        not_or.mpr ⟨fun hq => (nomatch hst.symm.trans hq.1), not_not.mpr (rerunKey_refreshed.mpr hsame)⟩
      rw [hknown, if_neg hseq, if_neg hstays, refreshed_of_eligible hst]
      rfl
    · rw [hknown, if_neg hseq, if_pos (.inr fun hkey => hsame (rerunKey_refreshed.mp hkey)), refreshed_of_eligible hst]
      rfl
    · have heligible : (refreshed r b).st = .eligible := by rw [refreshed_of_counted hcount]
      rw [hknown, if_neg hseq, if_pos (.inl ⟨hst, heligible⟩), refreshed_of_counted hcount]
      rfl

end Sys2Proof.Machine
end

section
/-!
PROOFS. The exchange unit: Marks, Follows and Replies (R71 to R76, R82 to R84, R89).
-/

namespace Sys2Proof.Machine

/-! ### Which messages the unit uses -/

theorem stampExcluded_iff {s : State} {st : Stamp} :
    stampExcluded s st = true ↔
      ∃ b, s.exch.boundary = some b ∧ 1 ≤ (b - st.elapsed).toNat ∧ (b - st.elapsed).toNat ≤ 2 ^ 63 := by
  unfold stampExcluded
  cases s.exch.boundary with
  | none => exact ⟨nofun, nofun⟩
  | some b =>
    dsimp only
    rw [earlierThan, decide_eq_true_iff]
    exact ⟨fun h => ⟨b, rfl, h⟩, fun ⟨_, hb, h⟩ => Option.some.inj hb ▸ h⟩

theorem slotHolds_iff {x : Option PendingMark} {h : Hdr} :
    slotHolds x h = true ↔ ∃ k, x = some k ∧ k.sender = h.sender ∧ k.portNo = h.portNo ∧ k.seq = h.seq := by
  cases x with
  | none => exact ⟨nofun, nofun⟩
  | some k =>
    simp only [slotHolds, Bool.and_eq_true, beq_iff_eq, and_assoc, Option.some.injEq]
    exact ⟨fun h => ⟨k, rfl, h⟩, fun ⟨_, hk, h⟩ => hk ▸ h⟩

theorem readTimestamp_valid {content : List Byte} {pos : Nat} :
    (readTimestamp content pos).valid = true ↔ fieldAt content (pos + 6) 4 < 10 ^ 9 := decide_eq_true_iff

section
variable {c : Copy} {h : Hdr} {s : State}

theorem exchangeTake_of_unselected (hsel : s.selectedName ≠ some (h.sender, h.portNo)) : exchangeTake c h s = s := if_pos hsel

variable (hsel : s.selectedName = some (h.sender, h.portNo))
include hsel

theorem exchangeTake_mark (hk : h.kind = 2) :
    exchangeTake c h s = if h.twoStep then twoStepMark c h s else oneStepMark c h s := by
  rw [exchangeTake, if_neg (not_not.mpr hsel), if_pos (show h.kind = kindMark from hk)]

theorem exchangeTake_follow (hk : h.kind = 3) : exchangeTake c h s = followMatch c h s := by
  have hmark : ¬ h.kind = kindMark := by rw [hk]; decide
  rw [exchangeTake, if_neg (not_not.mpr hsel), if_neg hmark, if_pos (show h.kind = kindFollow from hk)]

theorem exchangeTake_reply (hk : h.kind = 5) :
    exchangeTake c h s =
      if bitsAt 64 (contentOf c.bytes) (c.hdrPos + 38) 8 = s.identity ∧ fieldAt (contentOf c.bytes) (c.hdrPos + 46) 2 = 1 then
        probeReply c h s
      else s := by
  have hmark : ¬ h.kind = kindMark := by rw [hk]; decide
  have hfollow : ¬ h.kind = kindFollow := by rw [hk]; decide
  rw [exchangeTake, if_neg (not_not.mpr hsel), if_neg hmark, if_neg hfollow, if_pos (show h.kind = kindReply from hk)]

end

section
variable {s : State} {c : Copy} {rest : List Copy} (hc : s.copies = c :: rest)
include hc

/-- A copy of a used kind that passes R53 is given to the exchange unit. -/
theorem intakeNext_of_exchange {m : Nat} (hm : minLength (readHdr (contentOf c.bytes) c.hdrPos).kind = some m)
    (h4 : (readHdr (contentOf c.bytes) c.hdrPos).kind ≠ 4) (h1 : (readHdr (contentOf c.bytes) c.hdrPos).kind ≠ 1)
    (hlen : m ≤ (readHdr (contentOf c.bytes) c.hdrPos).len)
    (hdom : (readHdr (contentOf c.bytes) c.hdrPos).domain = s.servoCfg.domain) :
    intakeNext s = exchangeTake c (readHdr (contentOf c.bytes) c.hdrPos) { s with copies := rest } := by
  rw [intakeNext_cons hc, if_pos ((intakeOk_iff hm h4).mpr ⟨hlen, hdom⟩),
    if_neg (c := (readHdr _ _).kind = kindBeacon) h1]

/-- A copy that the exchange unit would leave alone is only taken from the queue. -/
theorem intakeNext_of_unused (h1 : (readHdr (contentOf c.bytes) c.hdrPos).kind ≠ 1)
    (htake : exchangeTake c (readHdr (contentOf c.bytes) c.hdrPos) { s with copies := rest } = { s with copies := rest }) :
    intakeNext s = { s with copies := rest } := by
  rw [intakeNext_cons hc, if_neg (c := (readHdr _ _).kind = kindBeacon) h1, htake, ite_self]

end

/-! ### Templates -/

theorem templateOf_eq {c : Copy} {tpl : Template} (h : tpl.isOf c) : templateOf c = tpl := by
  obtain ⟨hst, htci, hl2, hudp⟩ := h
  cases tpl with
  | mk station tci net =>
    dsimp only at hst htci hl2 hudp
    subst hst htci
    cases hcarrier : c.carrier with
    | udp4 =>
      obtain ⟨u, hu, hnet⟩ := hudp hcarrier
      rw [hnet, templateOf]
      simp only [hcarrier, Option.mem_def.mp hu]
      rfl
    | none =>
      rw [hl2 (by rw [hcarrier]; nofun), templateOf]
      simp only [hcarrier]
    | l2 =>
      rw [hl2 (by rw [hcarrier]; nofun), templateOf]
      simp only [hcarrier]

theorem renewTemplate_of_waiting (t : Template) {s : State} {n l : Elapsed} (hs : s.exch.sched = .waiting n l) :
    renewTemplate t s =
      arrive .n .timing { bytes := probeFrame s t, origin := .probe s.exch.probeSeq }
        { s with
          exch :=
            { s.exch with template := some t, sched := scheduleFromNow s, probeSeq := s.exch.probeSeq + 1 } } := by
  rw [renewTemplate, hs]
  rfl

theorem renewTemplate_of_not_waiting (t : Template) {s : State} (hs : ∀ n l, s.exch.sched ≠ .waiting n l) :
    renewTemplate t s = { s with exch := { s.exch with template := some t } } := by
  unfold renewTemplate
  split
  · rename_i n l h
    exact (hs n l h).elim
  · rfl

/-! ### The timing queues that a sample leaves alone -/

theorem raise_timingQ (e : Event) (s : State) (p : Port) : ((raise e s).port p).timingQ = (s.port p).timingQ := by
  obtain ⟨qn, qd, gs, k, h⟩ := raise_frame e s
  rw [h]
  cases p <;> rfl

theorem raiseIf_timingQ (b : Bool) (e : Event) (s : State) (p : Port) : ((raiseIf b e s).port p).timingQ = (s.port p).timingQ := by
  cases b
  · rfl
  · exact raise_timingQ e s p

theorem settleTick_port (s : State) (p : Port) : (settleTick s).port p = s.port p := by
  cases p
  · exact settleTick_portN s
  · exact settleTick_portD s

theorem startWaiting_port (s : State) (p : Port) : (startWaiting s).port p = s.port p := by
  have hstep : ∀ (l : List (Fin 8)) (t : State),
      (l.foldl (fun t n =>
        match t.cad[n].st with
        | .waiting => t.setCad n { t.cad[n] with st := startState (t.cadRec n) true (laterThanNow t) }
        | _ => t) t).port p = t.port p := by
    intro l
    induction l with
    | nil => exact fun _ => rfl
    | cons n l ih =>
      intro t
      refine (ih _).trans ?_
      dsimp only
      split
      · cases p <;> rfl
      · rfl
  exact hstep allCad s

theorem setTraced_port (s : State) (p : Port) : (setTraced s).port p = s.port p := by
  unfold setTraced
  split
  · rfl
  · rw [settleTick_port, startWaiting_port]
    cases p <;> rfl

theorem setServo_port (s : State) (v : Servo) (p : Port) : ({ s with servo := v } : State).port p = s.port p := by
  cases p <;> rfl

theorem lockDetect_timingQ (theta : Int) (s : State) (p : Port) : ((lockDetect theta s).port p).timingQ = (s.port p).timingQ := by
  unfold lockDetect
  split
  · split
    · rw [raise_timingQ, setServo_port]
    · rfl
  · split
    · split
      · rw [setTraced_port, raise_timingQ, setServo_port]
      · rw [setServo_port]
    · rw [setServo_port]

theorem applySample_timingQ (theta : Int) (s : State) (p : Port) : ((applySample theta s).port p).timingQ = (s.port p).timingQ := by
  rw [applySample, lockDetect_timingQ, setServo_port]

theorem acquireSample_timingQ (o : Offset) (s : State) (p : Port) : ((acquireSample o s).port p).timingQ = (s.port p).timingQ := by
  unfold acquireSample
  split
  · cases p <;> rfl
  · rw [applySample_timingQ, setServo_port]

theorem servoSample_timingQ (o : Offset) (s : State) (p : Port) : ((servoSample o s).port p).timingQ = (s.port p).timingQ := by
  unfold servoSample
  split
  · rfl
  · exact acquireSample_timingQ o s p
  · unfold trackSample
    split
    · split
      · rw [acquireSample_timingQ, enterAcquire, clearLocked, raiseIf_timingQ, setServo_port, setServo_port]
      · rw [setServo_port]
    · exact applySample_timingQ _ s p
  · rfl

/-! ### A new Mark difference -/

section
variable (m : Int) (seq : BitVec 16) (s : State)

theorem newMarkDiff_of_empty (h : s.exch.window = []) :
    newMarkDiff m seq s = { s with exch := { s.exch with mark := some { m := m, seq := seq } } } := if_pos h

theorem newMarkDiff_of_window (h : s.exch.window ≠ []) :
    newMarkDiff m seq s =
      servoSample (offsetOf m s.exch.window)
        { s with
          exch :=
            { s.exch with
              mark := some { m := m, seq := seq }, lastOffset := some (offsetOf m s.exch.window) } } := if_neg h

theorem newMarkDiff_exch :
    (newMarkDiff m seq s).exch =
      { s.exch with
        mark := some { m := m, seq := seq }
        lastOffset := if s.exch.window = [] then s.exch.lastOffset else some (offsetOf m s.exch.window) } := by
  by_cases h : s.exch.window = []
  · rw [newMarkDiff_of_empty m seq s h, if_pos h]
  · rw [newMarkDiff_of_window m seq s h, if_neg h]
    exact (servoSample_evolves _ _).same .exch (by decide)

theorem newMarkDiff_timingQ (p : Port) : ((newMarkDiff m seq s).port p).timingQ = (s.port p).timingQ := by
  by_cases h : s.exch.window = []
  · rw [newMarkDiff_of_empty m seq s h]
    cases p <;> rfl
  · rw [newMarkDiff_of_window m seq s h, servoSample_timingQ]
    cases p <;> rfl

end

/-- The rounding of R84: to the nearest whole ns, halves away from zero. -/
theorem roundNs_nearest (x : Int) :
    (2 * (roundNs x * 256 - x)).natAbs ≤ 256 ∧
      ((2 * (roundNs x * 256 - x)).natAbs = 256 → x.natAbs ≤ (roundNs x * 256).natAbs) := by
  unfold roundNs
  split <;> omega

theorem State.evolves.port {s t : State} {F : List Field} (h : s.evolves F t) (p : Port) :
    t.port p = { s.port p with timingQ := (t.port p).timingQ, ordinaryQ := (t.port p).ordinaryQ } := by
  cases p
  · obtain ⟨tq, oq, hN, -⟩ := h.portN
    change t.portN = _
    rw [show t.port .n = t.portN from rfl, hN]
    rfl
  · obtain ⟨tq, oq, hD, -⟩ := h.portD
    change t.portD = _
    rw [show t.port .d = t.portD from rfl, hD]
    rfl

theorem arrive_timing_of_room {p : Port} {e : EgressEntry} {s : State} (hl : (s.port p).link = .up)
    (hq : (s.port p).timingQ.length < 8) :
    arrive p .timing e s = s.setPort p { s.port p with timingQ := (s.port p).timingQ ++ [e] } := by
  have hdown : ¬ (s.port p).link = .down := by rw [hl]; nofun
  exact (if_neg hdown).trans (if_pos hq)

theorem arrive_timing_timingQ {p : Port} {e : EgressEntry} {s : State} (hl : (s.port p).link = .up)
    (hq : (s.port p).timingQ.length < 8) :
    ((arrive p .timing e s).port p).timingQ = (s.port p).timingQ ++ [e] := by
  rw [arrive_timing_of_room hl hq, State.setPort_port]

theorem renewTemplate_timingQ (t : Template) {s : State} {n l : Elapsed} (hs : s.exch.sched = .waiting n l)
    (hl : s.portN.link = .up) (hq : s.portN.timingQ.length < 8) :
    (renewTemplate t s).portN.timingQ =
      s.portN.timingQ ++ [{ bytes := probeFrame s t, origin := .probe s.exch.probeSeq }] := by
  have hjoin := fun (e : EgressEntry) (x : Exchange) =>
    arrive_timing_timingQ (p := .n) (e := e) (s := { s with exch := x }) hl hq
  rw [renewTemplate_of_waiting t hs]
  exact hjoin _ _

/-! ### Follows and Replies -/

section
variable {c : Copy} {h : Hdr} {s : State}

theorem followMatch_of_match {k : PendingMark} (hk : s.exch.slot = some k)
    (hm : k.sender = h.sender ∧ k.portNo = h.portNo ∧ k.seq = h.seq) :
    followMatch c h s =
      if (readTimestamp (contentOf c.bytes) (c.hdrPos + 28)).valid then
        newMarkDiff
          (markDifference k.t2 (readTimestamp (contentOf c.bytes) (c.hdrPos + 28)).value (k.corr + h.corr) s.portN.asym)
          k.seq { s with exch := { s.exch with slot := none } }
      else { s with exch := { s.exch with slot := none } } := by
  simp only [followMatch, hk]
  exact if_pos (slotHolds_iff.mpr ⟨k, rfl, hm⟩)

theorem followMatch_of_no_match (hno : ¬ slotHolds s.exch.slot h = true) : followMatch c h s = s := by
  unfold followMatch
  split
  · rfl
  · rename_i k hk
    rw [hk] at hno
    exact if_neg hno

theorem twoStepMark_of_new (hnew : ¬ slotHolds s.exch.slot h = true) (hex : ¬ stampExcluded s c.stamp = true) :
    twoStepMark c h s =
      renewTemplate (templateOf c)
        { s with
          exch :=
            { s.exch with
              slot := some { sender := h.sender, portNo := h.portNo, seq := h.seq, t2 := c.stamp.time, corr := h.corr } } } :=
  if_neg (not_or.mpr ⟨hnew, hex⟩)

/-- The state of the unit without the probe records of a sequence number. -/
def State.probesLeft (s : State) (seq : BitVec 16) : State :=
  { s with exch := { s.exch with probes := s.exch.probes.filter fun q => q.seq != seq } }

theorem probeReply_of_none (hno : ∀ q ∈ s.exch.probes, q.seq ≠ h.seq) : probeReply c h s = s := by
  have hfind : (s.exch.probes.find? fun p => p.seq == h.seq) = none :=
    List.find?_eq_none.mpr fun q hq => by simpa using hno q hq
  rw [probeReply, hfind]

theorem probeReply_of_some {q : PendingProbe} (hq : (s.exch.probes.find? fun p => p.seq == h.seq) = some q)
    (hv : (readTimestamp (contentOf c.bytes) (c.hdrPos + 28)).valid = true) {k : MarkDiff} (hk : s.exch.mark = some k) :
    probeReply c h s =
      { s with
        exch :=
          { s.exch with
            probes := s.exch.probes.filter fun q => q.seq != h.seq
            window :=
              joinWindow
                (delaySample k.m
                  (probeDifference (readTimestamp (contentOf c.bytes) (c.hdrPos + 28)).value q.t3 h.corr s.portN.asym))
                s.exch.window } } := by
  rw [probeReply, hq]
  simp only [hv, hk]

theorem probeReply_of_unusable {q : PendingProbe} (hq : (s.exch.probes.find? fun p => p.seq == h.seq) = some q)
    (hno : (readTimestamp (contentOf c.bytes) (c.hdrPos + 28)).valid = false ∨ s.exch.mark = none) :
    probeReply c h s = s.probesLeft h.seq := by
  rw [probeReply, hq]
  dsimp only
  split
  · rename_i k hv hk
    rcases hno with hno | hno
    · rw [hno] at hv
      cases hv
    · rw [hno] at hk
      cases hk
  · rfl

end

/-- The first record of a sequence number is the one that is found. -/
theorem find?_first {ps a b : List PendingProbe} {q : PendingProbe} {seq : BitVec 16} (hps : ps = a ++ q :: b)
    (hq : q.seq = seq) (ha : ∀ y ∈ a, y.seq ≠ seq) : (ps.find? fun p => p.seq == seq) = some q :=
  List.find?_eq_some_iff_append.mpr ⟨beq_iff_eq.mpr hq, a, b, hps, fun y hy => by simpa using ha y hy⟩

theorem minLength_eq_none {k : Nat} (h : k = 0 ∨ 5 < k) : minLength k = none := by
  unfold minLength
  split
  · omega
  · omega
  · omega
  · omega
  · omega
  · rfl

/-! ### The four obligations -/

/-- Settles O28. -/
theorem markDifferenceGivesOffset : Obligations.MarkDifferenceGivesOffset := by
  intro s c rest hc content h t1 hlen hdom hsel hvalid d interval kept renewed gives
  have hnew : ∀ (m : Int) (seq : BitVec 16) (v : State) (more : State → Prop), s.evolves [.copies, .exch] v →
      exec .timingCopyIntake s = .next (newMarkDiff m seq v) → v.exch.slot = none → v.exch.window = s.exch.window →
      v.exch.probes = s.exch.probes → v.exch.boundary = s.exch.boundary → v.exch.lastOffset = s.exch.lastOffset →
      v.copies = rest → more (newMarkDiff m seq v) → gives m seq more := by
    intro m seq v more hv hexec hslot hwindow hprobes hboundary hlast hcopies hmore
    have hafter : v.evolves exchangeFields (newMarkDiff m seq v) := newMarkDiff_evolves m seq v
    have hexch := newMarkDiff_exch m seq v
    have hall := (hv.mono (G := .copies :: exchangeFields) (by decide)).trans (hafter.mono (by decide))
    refine ⟨newMarkDiff m seq v, hexec, by rw [hexch], by rw [hexch]; exact hslot, by rw [hexch]; exact hwindow,
      by rw [hexch]; exact hprobes, by rw [hexch]; exact hboundary, hall.same .sources (by decide),
      hall.same .time (by decide), hall.same .elapsed (by decide), hall.same .servoCfg (by decide),
      hall.same .residence (by decide), (hafter.same .copies (by decide)).trans hcopies, hmore, hall.port,
      fun hempty => ?_, fun hsome => ?_⟩
    · rw [← hwindow] at hempty
      rw [newMarkDiff_of_empty m seq v hempty]
      exact ⟨hlast, hv.same .servo (by decide), hv.same .steps (by decide)⟩
    · rw [← hwindow] at hsome
      have hmean : offsetOf m v.exch.window = offsetOf m s.exch.window := by rw [hwindow]
      refine ⟨offsetOf m v.exch.window, roundNs (m - d), _, newMarkDiff_of_window m seq v hsome, hv.same .servo (by decide),
        hv.same .steps (by decide), hv.same .servoCfg (by decide), hv.same .cad (by decide), hv.same .time (by decide),
        hv.same .clock (by decide), ?_, ?_, ?_, ?_, ?_⟩
      · rw [hexch, if_neg hsome]
      · rw [hmean]
        rfl
      · rw [hmean]
        exact (roundNs_nearest _).1
      · rw [hmean]
        exact (roundNs_nearest _).2
      · rw [hmean]
        rfl
  refine ⟨fun hkind htwo hfresh hbound => ?_, fun k hkind hk hs hp hseq => ?_⟩
  · have htake := intakeNext_of_exchange hc (m := 38) (show minLength h.kind = _ by rw [hkind]; rfl)
      (show h.kind ≠ 4 by omega) (show h.kind ≠ 1 by omega) hlen hdom
    let emptied : State := { s with copies := rest, exch := { s.exch with slot := none } }
    have hunexcluded : stampExcluded s c.stamp ≠ true := fun hex => by
      obtain ⟨b, hb, hlow, hhigh⟩ := stampExcluded_iff.mp hex
      have := hbound b hb
      omega
    have hexec : exec .timingCopyIntake s =
        .next (newMarkDiff (c.stamp.time - t1 - h.corr - s.portN.asym) h.seq (renewTemplate (templateOf c) emptied)) := by
      rw [exec_timingCopyIntake, htake, exchangeTake_mark (s := { s with copies := rest }) hsel hkind]
      refine congrArg Host.Outcome.next ?_
      rw [show (readHdr (contentOf c.bytes) c.hdrPos).twoStep = false from htwo, if_neg Bool.false_ne_true]
      refine if_neg (not_or.mpr ⟨hfresh, not_or.mpr ⟨hunexcluded, ?_⟩⟩)
      rw [readTimestamp_valid.mpr hvalid]
      decide
    have hemptied : s.evolves [.copies, .exch] emptied :=
      State.sameBut.evolves (fun f hf => by cases f <;> simp at hf <;> rfl) rfl rfl rfl
    have hev := hemptied.trans ((renewTemplate_evolves (templateOf c) emptied).mono (by decide))
    have hcopies : (renewTemplate (templateOf c) emptied).copies = rest :=
      (renewTemplate_evolves (templateOf c) emptied).same .copies (by decide)
    by_cases hwait : ∃ n l, s.exch.sched = .waiting n l
    · obtain ⟨n, l, hwait⟩ := hwait
      have hrenewed := renewTemplate_of_waiting (templateOf c) (s := emptied) hwait
      have hexch := congrArg State.exch hrenewed
      rw [arrive_exch] at hexch
      refine hnew _ _ _ _ hev hexec (by rw [hexch]) (by rw [hexch]) (by rw [hexch]) (by rw [hexch]) (by rw [hexch]) hcopies
        fun tpl htpl => ?_
      rw [newMarkDiff_exch, hexch, templateOf_eq htpl]
      refine ⟨rfl, fun hno => (hno n l hwait).elim, fun n' l' _ => ⟨?_, rfl, fun hl hq => ?_⟩⟩
      · exact congrArg (fun x => Schedule.timed (s.elapsed + x) s.elapsed) (probeStep_eq s)
      · refine (newMarkDiff_timingQ _ _ _ .n).trans ?_
        rw [← templateOf_eq htpl]
        exact renewTemplate_timingQ (templateOf c) (s := emptied) hwait hl hq
    · have hwait : ∀ n l, s.exch.sched ≠ .waiting n l := fun n l h => hwait ⟨n, l, h⟩
      have hrenewed := renewTemplate_of_not_waiting (templateOf c) (s := emptied) hwait
      refine hnew _ _ _ _ hev hexec (by rw [hrenewed]) (by rw [hrenewed]) (by rw [hrenewed]) (by rw [hrenewed])
        (by rw [hrenewed]) hcopies fun tpl htpl => ?_
      rw [hrenewed, templateOf_eq htpl]
      have hexch := newMarkDiff_exch (c.stamp.time - t1 - h.corr - s.portN.asym) h.seq
        { emptied with exch := { emptied.exch with template := some tpl } }
      exact ⟨(congrArg Exchange.template hexch :),
        fun _ => ⟨(congrArg Exchange.sched hexch :), (congrArg Exchange.probeSeq hexch :), newMarkDiff_timingQ _ _ _ .n⟩,
        fun n l h => (hwait n l h).elim⟩
  · have htake := intakeNext_of_exchange hc (m := 38) (show minLength h.kind = _ by rw [hkind]; rfl)
      (show h.kind ≠ 4 by omega) (show h.kind ≠ 1 by omega) hlen hdom
    let emptied : State := { s with copies := rest, exch := { s.exch with slot := none } }
    have hemptied : s.evolves [.copies, .exch] emptied :=
      State.sameBut.evolves (fun f hf => by cases f <;> simp at hf <;> rfl) rfl rfl rfl
    have hexec : exec .timingCopyIntake s =
        .next (newMarkDiff (k.t2 - t1 - (k.corr + h.corr) - s.portN.asym) k.seq emptied) := by
      rw [exec_timingCopyIntake, htake, exchangeTake_follow (s := { s with copies := rest }) hsel hkind,
        followMatch_of_match (s := { s with copies := rest }) hk ⟨hs, hp, hseq⟩, if_pos (readTimestamp_valid.mpr hvalid)]
      rfl
    refine hnew _ _ _ _ hemptied hexec rfl rfl rfl rfl rfl rfl ?_
    have hexch := newMarkDiff_exch (k.t2 - t1 - (k.corr + h.corr) - s.portN.asym) k.seq emptied
    exact ⟨⟨(congrArg Exchange.sched hexch :), (congrArg Exchange.probeSeq hexch :), newMarkDiff_timingQ _ _ _ .n⟩,
      (congrArg Exchange.template hexch :)⟩

/-- Settles O29. -/
theorem twoStepMarkFillsSlot : Obligations.TwoStepMarkFillsSlot := by
  intro s c rest hc content h s1 interval hkind hlen hdom htwo hsel held early
  have htake : exec .timingCopyIntake s = .next (twoStepMark c h s1) := by
    rw [exec_timingCopyIntake, intakeNext_of_exchange hc (m := 38) (show minLength h.kind = _ by rw [hkind]; rfl)
      (show h.kind ≠ 4 by omega) (show h.kind ≠ 1 by omega) hlen hdom, exchangeTake_mark (s := s1) hsel hkind]
    exact congrArg Host.Outcome.next (if_pos htwo)
  have hheld : slotHolds s1.exch.slot h = true ↔ held := slotHolds_iff
  have hearly : stampExcluded s1 c.stamp = true ↔ early := stampExcluded_iff
  refine ⟨fun hno => htake.trans (congrArg Host.Outcome.next (if_pos (hno.imp hheld.mpr hearly.mpr))),
    fun hnh hne tpl htpl => ?_⟩
  let filled : State :=
    { s1 with
      exch :=
        { s1.exch with
          slot := some { sender := h.sender, portNo := h.portNo, seq := h.seq, t2 := c.stamp.time, corr := h.corr } } }
  have hfills : twoStepMark c h s1 = renewTemplate (templateOf c) filled :=
    twoStepMark_of_new (hheld.not.mpr hnh) (hearly.not.mpr hne)
  refine ⟨fun hwait => htake.trans (congrArg Host.Outcome.next (hfills.trans ?_)),
    fun n l hwait => htake.trans (congrArg Host.Outcome.next (hfills.trans ?_))⟩
  · rw [renewTemplate_of_not_waiting _ (s := filled) hwait, templateOf_eq htpl]
  · rw [renewTemplate_of_waiting _ (s := filled) hwait, templateOf_eq htpl, scheduleFromNow, probeStep_eq]
    rfl

/-- Settles O30. -/
theorem replyGivesDelaySample : Obligations.ReplyGivesDelaySample := by
  intro s c rest q k hc content h t4 hkind hlen hdom hsel hid hport hvalid hmark hq d left
  obtain ⟨a, b, hprobes, hseq, hfirst⟩ := hq
  have htake : exec .timingCopyIntake s = .next (probeReply c h { s with copies := rest }) := by
    rw [exec_timingCopyIntake, intakeNext_of_exchange hc (m := 48) (show minLength h.kind = _ by rw [hkind]; rfl)
      (show h.kind ≠ 4 by omega) (show h.kind ≠ 1 by omega) hlen hdom,
      exchangeTake_reply (s := { s with copies := rest }) hsel hkind]
    exact congrArg Host.Outcome.next (if_pos ⟨hid, hport⟩)
  have hreply := probeReply_of_some (s := { s with copies := rest }) (find?_first hprobes hseq hfirst)
    (readTimestamp_valid.mpr hvalid) hmark
  have hwindow : ∀ w : List Int, joinWindow d s.exch.window = w →
      exec .timingCopyIntake s =
        .next { s with copies := rest, exch := { s.exch with probes := left, window := w } } := fun w hw =>
    htake.trans (congrArg Host.Outcome.next (hw ▸ hreply))
  refine ⟨fun hneg => hwindow _ (if_pos hneg), fun hpos hcap => hwindow _ ?_⟩
  rw [joinWindow, if_neg (not_lt.mpr hpos)]
  by_cases hfull : s.exch.window.length = 8
  · rw [if_pos hfull, pushNewest_of_full hfull (by decide)]
  · rw [if_neg hfull, pushNewest_of_room _ _ _ (by omega)]

/-- Settles O31. -/
theorem unusedMessagesAreIgnored : Obligations.UnusedMessagesAreIgnored := by
  intro s c rest hc content h s1 invalid selected passes forPart slotMatch early
  have hunused : h.kind ≠ 1 → exchangeTake c h s1 = s1 → exec .timingCopyIntake s = .next s1 := fun h1 htake =>
    congrArg Host.Outcome.next (intakeNext_of_unused hc h1 htake)
  have hrefused : intakeOk s h = false → exec .timingCopyIntake s = .next s1 := fun hno =>
    congrArg Host.Outcome.next (intakeNext_of_refused hc hno)
  have hshort : ∀ m : Nat, minLength h.kind = some m → h.kind ≠ 4 → h.len < m → exec .timingCopyIntake s = .next s1 :=
    fun m hm h4 hlt => hrefused (Bool.eq_false_iff.mpr fun hok => Nat.not_le.mpr hlt ((intakeOk_iff hm h4).mp hok).1)
  have htaken : ∀ {t : State}, ∀ m : Nat, minLength h.kind = some m → h.kind ≠ 4 → h.kind ≠ 1 → m ≤ h.len →
      h.domain = s.servoCfg.domain → exchangeTake c h s1 = t → exec .timingCopyIntake s = .next t :=
    fun m hm h4 h1 hlen hdom htake =>
      congrArg Host.Outcome.next ((intakeNext_of_exchange hc hm h4 h1 hlen hdom).trans htake)
  have hinvalid : invalid → (readTimestamp content (c.hdrPos + 28)).valid = false := fun hv =>
    Bool.eq_false_iff.mpr fun hval => Nat.not_lt.mpr hv (readTimestamp_valid.mp hval)
  have hslot : slotHolds s1.exch.slot h = true ↔ slotMatch := slotHolds_iff
  refine ⟨fun hcase => ?_, fun hkind hpass hmatch hinv => ?_, fun hkind hpass hpart hq hno => ?_⟩
  · rcases hcase with h0 | h4 | h5 | hdom | ⟨h1, hlen⟩ | ⟨h23, hlen⟩ | ⟨h5, hlen⟩ | ⟨h1, hsel⟩ | ⟨h2, htwo, hno⟩ |
      ⟨h3, hno⟩ | ⟨h5, hno⟩
    · exact hrefused (by rw [intakeOk, minLength_eq_none (.inl h0)])
    · exact hrefused (by simp [intakeOk, h4, minLength, kindProbe])
    · exact hrefused (by rw [intakeOk, minLength_eq_none (.inr h5)])
    · refine hrefused (Bool.eq_false_iff.mpr fun hok => hdom ?_)
      unfold intakeOk at hok
      split at hok
      · simp only [Bool.and_eq_true, beq_iff_eq] at hok
        exact hok.1.2
      · cases hok
    · exact hshort 46 (by rw [h1]; rfl) (by omega) hlen
    · exact hshort 38 (by rcases h23 with h2 | h3 <;> simp only [*] <;> rfl) (by omega) hlen
    · exact hshort 48 (by rw [h5]; rfl) (by omega) hlen
    · exact hunused h1 (exchangeTake_of_unselected hsel)
    · refine hunused (by omega) ?_
      by_cases hsel : s1.selectedName = some (h.sender, h.portNo)
      · rw [exchangeTake_mark hsel h2, htwo, if_neg Bool.false_ne_true]
        exact if_pos (hno.imp id (Or.imp stampExcluded_iff.mpr hinvalid))
      · exact exchangeTake_of_unselected hsel
    · refine hunused (by omega) ?_
      by_cases hsel : s1.selectedName = some (h.sender, h.portNo)
      · rw [exchangeTake_follow hsel h3, followMatch_of_no_match (hslot.not.mpr hno)]
      · exact exchangeTake_of_unselected hsel
    · refine hunused (by omega) ?_
      by_cases hsel : s1.selectedName = some (h.sender, h.portNo)
      · rw [exchangeTake_reply hsel h5]
        rcases hno with hpart | hnone
        · exact if_neg hpart
        · rw [probeReply_of_none (s := s1) hnone, ite_self]
      · exact exchangeTake_of_unselected hsel
  · obtain ⟨hlen, hdom, hsel⟩ := hpass
    obtain ⟨k, hk, hm⟩ := hmatch
    refine htaken 38 (by rw [hkind]; rfl) (by omega) (by omega) hlen hdom ?_
    rw [exchangeTake_follow (s := s1) hsel hkind, followMatch_of_match (s := s1) hk hm, hinvalid hinv,
      if_neg Bool.false_ne_true]
  · obtain ⟨hlen, hdom, hsel⟩ := hpass
    obtain ⟨q, hq, hseq⟩ := hq
    refine htaken 48 (by rw [hkind]; rfl) (by omega) (by omega) hlen hdom ?_
    rw [exchangeTake_reply (s := s1) hsel hkind]
    refine (if_pos hpart).trans ?_
    cases hfind : s.exch.probes.find? fun p => p.seq == h.seq with
    | none => exact (List.find?_eq_none.mp hfind q hq (beq_iff_eq.mpr hseq)).elim
    | some x => exact probeReply_of_unusable (s := s1) hfind (hno.imp hinvalid id)

end Sys2Proof.Machine
end

section
/-!
PROOFS. Fields of frames that are built piece by piece, and the Probe's frame (R78, R79).
-/

namespace Sys2Proof.Machine

/-! ### Fields of a concatenation -/

section
variable (xs ys : List Byte) {off n : Nat}

@[simp] theorem slice_append_right (h : xs.length ≤ off) : slice (xs ++ ys) off n = slice ys (off - xs.length) n := by
  rw [slice, slice, List.drop_append, List.drop_eq_nil_of_le h, List.nil_append]

theorem slice_append_left (h : off + n ≤ xs.length) : slice (xs ++ ys) off n = slice xs off n := by
  rw [slice, slice, List.drop_append_of_le_length (by omega), List.take_append_of_le_length]
  rw [List.length_drop]
  omega

theorem slice_append_whole (h : xs.length ≤ n) : slice (xs ++ ys) 0 n = xs ++ slice ys 0 (n - xs.length) := by
  simp [slice, List.take_append, List.take_of_length_le h]

theorem slice_self (h : xs.length ≤ n) : slice xs 0 n = xs := List.take_of_length_le h

@[simp] theorem fieldAt_append_right (h : xs.length ≤ off) : fieldAt (xs ++ ys) off n = fieldAt ys (off - xs.length) n := by
  rw [fieldAt, slice_append_right xs ys h, fieldAt]

theorem fieldAt_append_left (h : off + n ≤ xs.length) : fieldAt (xs ++ ys) off n = fieldAt xs off n := by
  rw [fieldAt, slice_append_left xs ys h, fieldAt]

@[simp] theorem byteAt_append_right (h : xs.length ≤ off) : byteAt (xs ++ ys) off = byteAt ys (off - xs.length) := by
  rw [byteAt, byteAt, List.getD_append_right _ _ _ _ h]

section
variable {xs ys} (hd : xs.length = off)
include hd

/-- A field behind a leading part, counted from the end of that part. -/
theorem fieldAt_append_add {k : Nat} : fieldAt (xs ++ ys) (off + k) n = fieldAt ys k n := by
  rw [fieldAt_append_right xs ys (by omega), hd, Nat.add_sub_cancel_left]

theorem byteAt_append_add {k : Nat} : byteAt (xs ++ ys) (off + k) = byteAt ys k := by
  rw [byteAt_append_right xs ys (by omega), hd, Nat.add_sub_cancel_left]

theorem slice_append_add {k : Nat} : slice (xs ++ ys) (off + k) n = slice ys k n := by
  rw [slice_append_right xs ys (by omega), hd, Nat.add_sub_cancel_left]

end

theorem byteAt_append_left (h : off < xs.length) : byteAt (xs ++ ys) off = byteAt xs off := by
  rw [byteAt, byteAt, List.getD_append _ _ _ _ h]

end

@[simp] theorem fieldAt_beBytes (n v : Nat) (rest : List Byte) : fieldAt (beBytes n v ++ rest) 0 n = v % 256 ^ n := by
  have h := slice_append_whole (beBytes n v) rest (n := n) (by rw [beBytes_length])
  rw [fieldAt, h, beBytes_length, Nat.sub_self, slice, List.take_zero, List.append_nil, beNat_beBytes]

section
variable (b c : Byte) (bs : List Byte) {off n : Nat}

@[simp] theorem slice_cons (h : 0 < off) : slice (b :: bs) off n = slice bs (off - 1) n :=
  slice_append_right [b] bs h

@[simp] theorem fieldAt_cons (h : 0 < off) : fieldAt (b :: bs) off n = fieldAt bs (off - 1) n := by
  rw [fieldAt, slice_cons b bs h, fieldAt]

@[simp] theorem byteAt_cons (h : 0 < off) : byteAt (b :: bs) off = byteAt bs (off - 1) :=
  byteAt_append_right [b] bs h

@[simp] theorem byteAt_cons_zero : byteAt (b :: bs) 0 = b := rfl

theorem fieldAt_two : fieldAt (b :: c :: bs) 0 2 = b.toNat * 256 + c.toNat := by
  simp [fieldAt, slice, beNat]

end

/-- The number in a field of `n` bytes that was written from a vector of `8 * n` bits. -/
theorem fieldAt_beBytes_toNat {w : Nat} (n : Nat) (v : BitVec w) (rest : List Byte) (hw : w = 8 * n) :
    fieldAt (beBytes n v.toNat ++ rest) 0 n = v.toNat := by
  rw [fieldAt_beBytes, Nat.mod_eq_of_lt]
  subst hw
  exact v.isLt.trans_eq (Nat.pow_mul 2 8 n)

@[simp] theorem addrBytes_length (a : Addr) : (addrBytes a).length = 6 := beBytes_length 6 _

theorem fieldAt_addrBytes (a : Addr) (rest : List Byte) : fieldAt (addrBytes a ++ rest) 0 6 = a.toNat :=
  fieldAt_beBytes_toNat 6 a rest rfl

/-- A number read with its sign (R209). -/
theorem signedOf_toNat {w : Nat} (x : BitVec w) : signedOf w x.toNat = x.toInt := by
  rw [BitVec.toInt_eq_toNat_cond, signedOf]
  cases w with
  | zero => simp [BitVec.of_length_zero (x := x)]
  | succ w =>
    have hpow : 2 ^ (w + 1) = 2 * 2 ^ w := Nat.pow_succ'
    rw [Nat.add_sub_cancel, hpow]
    simp only [Nat.mul_lt_mul_left (show 0 < 2 by decide)]
    norm_cast
    rw [hpow]

/-! ### The bytes of a Probe -/

/-- The timing message of a Probe stands at an offset (R51, R79). -/
def State.probeMessageAt (s : State) (b : List Byte) (q : Nat) : Prop :=
  byteAt b q = 4#8 ∧ byteAt b (q + 1) = 2#8 ∧ fieldAt b (q + 2) 2 = 38 ∧ byteAt b (q + 4) = s.servoCfg.domain ∧
    (s.servoCfg.legal → signedOf 8 (byteAt b (q + 5)).toNat = s.servoCfg.probeCode) ∧
    fieldAt b (q + 6) 2 = 0 ∧ fieldAt b (q + 8) 8 = 0 ∧ fieldAt b (q + 16) 2 = 0x6A1C ∧
    fieldAt b (q + 18) 6 = s.station.toNat ∧ fieldAt b (q + 24) 2 = 1 ∧
    fieldAt b (q + 26) 2 = s.exch.probeSeq.toNat ∧ slice b (q + 28) 10 = List.replicate 10 0

@[simp] theorem probeMessage_length (s : State) : (probeMessage s).length = 38 := by simp [probeMessage]

/-- The identity is 0x6A1C followed by the station address. -/
theorem identity_bytes (s : State) : beBytes 8 s.identity.toNat = beBytes 2 0x6A1C ++ beBytes 6 s.station.toNat := by
  have hlt := s.station.isLt
  have hid : s.identity.toNat = 0x6A1C * 2 ^ 48 + s.station.toNat := by
    simp only [State.identity, BitVec.toNat_append]
    rw [← Nat.shiftLeft_add_eq_or_of_lt hlt, Nat.shiftLeft_eq]
    rfl
  rw [hid]
  simp only [beBytes, List.cons_append, List.nil_append, List.cons.injEq, and_true]
  refine ⟨?_, ?_, ?_, ?_, ?_, ?_, ?_, ?_⟩ <;> (apply BitVec.eq_of_toNat_eq; simp only [BitVec.toNat_ofNat]; omega)

theorem probeMessage_at (s : State) (pre rest : List Byte) :
    s.probeMessageAt (pre ++ (probeMessage s ++ rest)) pre.length := by
  have hcode : s.servoCfg.legal → (BitVec.ofInt 8 s.servoCfg.probeCode).toInt = s.servoCfg.probeCode := fun h => by
    obtain ⟨-, ⟨hlow, hhigh⟩, -⟩ := h
    rw [BitVec.toInt_ofInt, Int.bmod_def]
    omega
  have hbyte : ∀ k, byteAt (pre ++ (probeMessage s ++ rest)) (pre.length + k) = byteAt (probeMessage s ++ rest) k := fun k => by
    rw [byteAt_append_right _ _ (by omega), Nat.add_sub_cancel_left]
  have hfield : ∀ k n, fieldAt (pre ++ (probeMessage s ++ rest)) (pre.length + k) n = fieldAt (probeMessage s ++ rest) k n :=
    fun k n => by rw [fieldAt_append_right _ _ (by omega), Nat.add_sub_cancel_left]
  have hslice : ∀ k n, slice (pre ++ (probeMessage s ++ rest)) (pre.length + k) n = slice (probeMessage s ++ rest) k n :=
    fun k n => by rw [slice_append_right _ _ (by omega), Nat.add_sub_cancel_left]
  unfold State.probeMessageAt
  rw [show byteAt _ pre.length = _ from hbyte 0]
  simp only [hbyte, hfield, hslice]
  simp only [probeMessage, identity_bytes, List.append_assoc]
  refine ⟨rfl, rfl, by simp, by simp, fun h => ?_, by simp [fieldAt_two], by simp, by simp, ?_, by simp, ?_, ?_⟩
  · rw [show byteAt _ 5 = BitVec.ofInt 8 s.servoCfg.probeCode by simp, signedOf_toNat, hcode h]
  · simpa using s.station.isLt
  · simpa using s.exch.probeSeq.isLt
  · rw [slice_append_right _ _ (by simp)]
    simp only [List.length_cons, List.length_nil, beBytes_length, slice_append_right, Nat.reduceAdd, Nat.reduceSub,
      Nat.reduceLeDiff]
    rfl

/-! ### The schedule -/

theorem reached_iff {s : State} {r : Elapsed} : s.reached r = true ↔ (s.elapsed - r).toNat < 2 ^ 63 := decide_eq_true_iff

theorem not_reached_iff {s : State} {r : Elapsed} : s.reached r = false ↔ 2 ^ 63 ≤ (s.elapsed - r).toNat := by
  rw [State.reached, decide_eq_false_iff_not, Nat.not_lt]

theorem exec_probeScheduleExpiry (s : State) : exec .probeScheduleExpiry s = .next (expireSchedule s) := rfl

section
variable {s : State} {next latest : Elapsed}

theorem expireSchedule_of_stopped (h : s.exch.sched = .stopped) : expireSchedule s = s := by
  rw [expireSchedule, h]

theorem expireSchedule_of_early (h : s.exch.sched = .timed next latest ∨ s.exch.sched = .waiting next latest)
    (hr : s.reached next = false) : expireSchedule s = s := by
  rcases h with h | h <;> simp only [expireSchedule, h, hr] <;> rfl

theorem expireSchedule_of_template {t : Template} (h : s.exch.sched = .timed next latest) (hr : s.reached next = true)
    (ht : s.exch.template = some t) :
    expireSchedule s = buildProbe t { s with exch := { s.exch with sched := scheduleFromNow s } } := by
  simp only [expireSchedule, h, hr, ht, if_true]

theorem expireSchedule_of_no_template (h : s.exch.sched = .timed next latest) (hr : s.reached next = true)
    (ht : s.exch.template = none) :
    expireSchedule s = { s with exch := { s.exch with sched := .waiting (s.elapsed + s.probeStep) latest } } := by
  simp only [expireSchedule, h, hr, ht, if_true]

theorem expireSchedule_of_waiting (h : s.exch.sched = .waiting next latest) (hr : s.reached next = true) :
    expireSchedule s = { s with exch := { s.exch with sched := .waiting (next + s.probeStep) latest } } := by
  simp only [expireSchedule, h, hr, if_true]

end

/-! ### The frame around the message -/

/-- The Ethernet header of a Probe without its type field. -/
def probeOuter (s : State) (t : Template) : List Byte := addrBytes t.station ++ (addrBytes s.station ++ tagBytes t.tci)

/-- The offset of the type field behind a tag that may be there (R20). -/
def typeOffset (tci : Option (BitVec 16)) : Nat := if tci = none then 12 else 16

theorem probeOuter_length (s : State) (t : Template) : (probeOuter s t).length = typeOffset t.tci := by
  cases h : t.tci <;> simp [probeOuter, typeOffset, tagBytes, h]

theorem typeOffset_le (tci : Option (BitVec 16)) : 12 ≤ typeOffset tci ∧ typeOffset tci ≤ 16 := by
  cases tci <;> simp [typeOffset]

/-- The addresses and the tag stand at the start of a frame that begins with them. -/
theorem probeOuter_fields (s : State) (t : Template) (rest : List Byte) :
    fieldAt (probeOuter s t ++ rest) 0 6 = t.station.toNat ∧ fieldAt (probeOuter s t ++ rest) 6 6 = s.station.toNat ∧
      ∀ v ∈ t.tci, fieldAt (probeOuter s t ++ rest) 12 2 = 0x8100 ∧ fieldAt (probeOuter s t ++ rest) 14 2 = v.toNat := by
  simp only [probeOuter, List.append_assoc]
  refine ⟨fieldAt_addrBytes _ _, ?_, fun v hv => ?_⟩
  · rw [fieldAt_append_right _ _ (by simp), addrBytes_length]
    exact fieldAt_addrBytes _ _
  · rw [Option.mem_def.mp hv]
    simpa [tagBytes, fieldAt_two] using v.isLt

/-- The frame of a Probe over L2: its header, its type, the message, and zeros up to 60 bytes. -/
theorem probeFrame_l2 {s : State} {t : Template} {et : BitVec 16} (h : t.net = .l2 et) :
    probeFrame s t =
      probeOuter s t ++ (beBytes 2 et.toNat ++ (probeMessage s ++ List.replicate (20 - typeOffset t.tci) 0)) := by
  have hlen : 60 - (probeOuter s t ++ (beBytes 2 et.toNat ++ probeMessage s)).length = 20 - typeOffset t.tci := by
    simp only [List.length_append, probeOuter_length, beBytes_length, probeMessage_length]
    omega
  rw [← hlen, probeFrame, h]
  simp only [padded, probeOuter, List.append_assoc]

/-- The IPv4 header of a Probe with its checksum (R79). -/
def probeIp (s : State) (ip : BitVec 32) (tos : Byte) : List Byte :=
  probeIpHeader s ip tos (onesNeg (onesSum (probeIpHeader s ip tos 0)))

theorem probeIpHeader_length (s : State) (ip : BitVec 32) (tos : Byte) (c : Nat) : (probeIpHeader s ip tos c).length = 20 := by
  simp [probeIpHeader]

/-- The frame of a Probe under UDP4: its header, the IPv4 and UDP headers, and the message; it needs no padding. -/
theorem probeFrame_udp4 {s : State} {t : Template} {ip : BitVec 32} {tos : Byte} {port : BitVec 16}
    (h : t.net = .udp4 ip tos port) :
    probeFrame s t =
      probeOuter s t ++ ([0x08, 0x00] ++ (probeIp s ip tos ++ (beBytes 2 port.toNat ++ (beBytes 2 port.toNat ++
        (beBytes 2 46 ++ ([0, 0] ++ probeMessage s)))))) := by
  rw [probeFrame, h]
  have hlen : ∀ x : List Byte, 60 ≤ x.length → padded x = x := fun x hx => by
    rw [padded, Nat.sub_eq_zero_of_le hx, List.replicate_zero, List.append_nil]
  dsimp only
  rw [hlen]
  · simp only [probeOuter, probeIp, List.append_assoc]
  · simp only [List.length_append, beBytes_length, probeMessage_length, probeIpHeader_length, addrBytes_length,
      List.length_cons, List.length_nil]
    omega

theorem onesNeg_lt (a : Nat) : onesNeg a < 65536 := by
  unfold onesNeg
  omega

/-- The IPv4 header of a Probe, field by field, before anything that follows it (R79). -/
theorem probeIp_fields (s : State) (ip : BitVec 32) (tos : Byte) (rest : List Byte) :
    byteAt (probeIp s ip tos ++ rest) 0 = 0x45#8 ∧ byteAt (probeIp s ip tos ++ rest) 1 = tos ∧
      fieldAt (probeIp s ip tos ++ rest) 2 2 = 66 ∧ fieldAt (probeIp s ip tos ++ rest) 4 2 = 0 ∧
      fieldAt (probeIp s ip tos ++ rest) 6 2 = 0x4000 ∧ byteAt (probeIp s ip tos ++ rest) 8 = 64#8 ∧
      byteAt (probeIp s ip tos ++ rest) 9 = 17#8 ∧
      fieldAt (probeIp s ip tos ++ rest) 10 2 =
        65535 - onesSum (slice (probeIp s ip tos ++ rest) 0 10 ++ [0, 0] ++ slice (probeIp s ip tos ++ rest) 12 8) ∧
      fieldAt (probeIp s ip tos ++ rest) 12 4 = s.servoCfg.probeIp.toNat ∧
      fieldAt (probeIp s ip tos ++ rest) 16 4 = ip.toNat := by
  have hsplit : ∀ c, probeIpHeader s ip tos c =
      ([0x45, tos] ++ beBytes 2 66 ++ [0, 0, 0x40, 0, 64, 17]) ++ (beBytes 2 c ++ (beBytes 4 s.servoCfg.probeIp.toNat ++
        beBytes 4 ip.toNat)) := fun c => by
    simp [probeIpHeader, List.append_assoc]
  have hzero : slice (probeIp s ip tos ++ rest) 0 10 ++ [0, 0] ++ slice (probeIp s ip tos ++ rest) 12 8 =
      probeIpHeader s ip tos 0 := by
    have hfirst : slice (probeIp s ip tos ++ rest) 0 10 = [0x45, tos] ++ beBytes 2 66 ++ [0, 0, 0x40, 0, 64, 17] := by
      rw [probeIp, hsplit]
      rfl
    have hlast : slice (probeIp s ip tos ++ rest) 12 8 = beBytes 4 s.servoCfg.probeIp.toNat ++ beBytes 4 ip.toNat := by
      rw [probeIp, hsplit]
      rfl
    rw [hfirst, hlast, hsplit]
    rfl
  rw [hzero]
  refine ⟨rfl, rfl, ?_, rfl, rfl, rfl, rfl, ?_, ?_, ?_⟩
  · simp [probeIp, probeIpHeader]
  · have hlt := onesNeg_lt (onesSum (probeIpHeader s ip tos 0))
    rw [probeIp, hsplit]
    simpa [onesNeg] using Nat.mod_eq_of_lt hlt
  · simpa [probeIp, probeIpHeader] using s.servoCfg.probeIp.isLt
  · simpa [probeIp, probeIpHeader] using ip.isLt

/-- Settles O32. -/
theorem probeScheduleExpires : Obligations.ProbeScheduleExpires := by
  refine ⟨fun s h => congrArg Host.Outcome.next ?_, fun s next latest hreached => ?_, fun s t => ?_⟩
  · rcases h with h | ⟨next, latest, h, hr⟩
    · exact expireSchedule_of_stopped h
    · exact expireSchedule_of_early h (not_reached_iff.mpr hr)
  · have hr : s.reached next = true := reached_iff.mpr hreached
    simp only [exec_probeScheduleExpiry, ← probeStep_eq]
    refine ⟨fun t h ht => ?_, fun h ht => ?_, fun h => ?_⟩
    · rw [expireSchedule_of_template h hr ht]
      rfl
    · rw [expireSchedule_of_no_template h hr ht]
    · rw [expireSchedule_of_waiting h hr]
  · intro b o message
    have ho : o = typeOffset t.tci := rfl
    have houter : ∃ rest, b = probeOuter s t ++ rest := by
      cases hnet : t.net with
      | l2 et => exact ⟨_, probeFrame_l2 hnet⟩
      | udp4 ip tos port => exact ⟨_, probeFrame_udp4 hnet⟩
    obtain ⟨rest, hrest⟩ := houter
    obtain ⟨hdst, hsrc, htag⟩ := probeOuter_fields s t rest
    have holen := probeOuter_length s t
    have hbound := typeOffset_le t.tci
    refine ⟨hrest ▸ hdst, hrest ▸ hsrc, hrest ▸ htag, fun et hnet => ?_, fun ip tos port hnet => ?_⟩
    · have hb : b = probeOuter s t ++ (beBytes 2 et.toNat ++ (probeMessage s ++ List.replicate (20 - o) 0)) := probeFrame_l2 hnet
      have hmessage : s.probeMessageAt b (o + 2) := by
        have h := probeMessage_at s (probeOuter s t ++ beBytes 2 et.toNat) (List.replicate (20 - o) 0)
        rwa [List.append_assoc, ← hb, List.length_append, holen, beBytes_length] at h
      refine ⟨?_, ?_, hmessage, ?_⟩
      · rw [hb]
        simp only [List.length_append, holen, beBytes_length, probeMessage_length, List.length_replicate]
        omega
      · rw [hb, fieldAt_append_right _ _ (by omega), holen, ho, Nat.sub_self]
        exact fieldAt_beBytes_toNat 2 et _ rfl
      · rw [hb, ← List.append_assoc, ← List.append_assoc]
        exact List.drop_left' (by simp only [List.length_append, holen, beBytes_length, probeMessage_length]; omega)
    · let udp : List Byte := beBytes 2 port.toNat ++ (beBytes 2 port.toNat ++ (beBytes 2 46 ++ ([0, 0] ++ probeMessage s)))
      have hb : b = probeOuter s t ++ ([0x08, 0x00] ++ (probeIp s ip tos ++ udp)) := probeFrame_udp4 hnet
      have hb' : b = (probeOuter s t ++ [0x08, 0x00]) ++ (probeIp s ip tos ++ udp) := by rw [hb, List.append_assoc]
      have hd : (probeOuter s t ++ [0x08, 0x00]).length = o + 2 := by rw [List.length_append, holen]; rfl
      have hip : (probeIp s ip tos).length = 20 := probeIpHeader_length s ip tos _
      have hmessage : s.probeMessageAt b (o + 2 + 28) := by
        have h := probeMessage_at s ((probeOuter s t ++ [0x08, 0x00]) ++ probeIp s ip tos ++ beBytes 2 port.toNat ++
          beBytes 2 port.toNat ++ beBytes 2 46 ++ [0, 0]) []
        have hpre : ((probeOuter s t ++ [0x08, 0x00]) ++ probeIp s ip tos ++ beBytes 2 port.toNat ++
            beBytes 2 port.toNat ++ beBytes 2 46 ++ [0, 0]).length = o + 2 + 28 := by
          rw [List.length_append, List.length_append, List.length_append, List.length_append, List.length_append, hd, hip]
          simp
        rw [hpre] at h
        rw [hb']
        simpa only [udp, List.append_assoc, List.append_nil] using h
      obtain ⟨hver, htos, htotal, hident, hfrag, httl, hproto, hsum, hsrcip, hdstip⟩ := probeIp_fields s ip tos udp
      have hudp : ∀ k n, fieldAt (probeIp s ip tos ++ udp) (20 + k) n = fieldAt udp k n := fun k n => by
        rw [fieldAt_append_right _ _ (by omega), hip, Nat.add_sub_cancel_left]
      have hport := port.isLt
      have hbyte : ∀ k, byteAt b (o + 2 + k) = byteAt (probeIp s ip tos ++ udp) k := fun k => hb' ▸ byteAt_append_add hd
      have hfield : ∀ k n, fieldAt b (o + 2 + k) n = fieldAt (probeIp s ip tos ++ udp) k n := fun k n =>
        hb' ▸ fieldAt_append_add hd
      have hslice : ∀ k n, slice b (o + 2 + k) n = slice (probeIp s ip tos ++ udp) k n := fun k n =>
        hb' ▸ slice_append_add hd
      refine ⟨?_, ?_, (hbyte 0).trans hver, (hbyte 1).trans htos, (hfield 2 2).trans htotal, (hfield 4 2).trans hident,
        (hfield 6 2).trans hfrag, (hbyte 8).trans httl, (hbyte 9).trans hproto, ?_, (hfield 12 4).trans hsrcip,
        (hfield 16 4).trans hdstip, ?_, ?_, ?_, ?_, hmessage⟩
      · rw [hb', List.length_append, hd, List.length_append, hip]
        simp [udp]
      · rw [hb, fieldAt_append_right _ _ (by omega), holen, ho, Nat.sub_self]
        rfl
      · rw [hfield 10 2, hslice 12 8, show slice b (o + 2) 10 = _ from hslice 0 10]
        exact hsum
      · rw [hfield 20 2, hudp 0]
        exact fieldAt_beBytes_toNat 2 port _ rfl
      · rw [hfield 22 2, hudp 2]
        simpa [udp] using hport
      · rw [hfield 24 2, hudp 4]
        simp [udp]
      · rw [hfield 26 2, hudp 6]
        simp [udp, fieldAt_two]

end Sys2Proof.Machine
end

section
/-!
PROOFS. The ports and the classifier (Chapters 1 and 2).
-/

namespace Sys2Proof.Machine

/-! ### Replacing a port twice -/

theorem State.setPort_setPort (s : State) (p : Port) (x y : PortState) : (s.setPort p x).setPort p y = s.setPort p y := by
  cases p <;> rfl

theorem State.setPort_self (s : State) (p : Port) : s.setPort p (s.port p) = s := by
  cases p <;> rfl

/-! ### Link and transmitter (R1, R9, R15) -/

theorem linkUp_of_up {p : Port} {s : State} (h : (s.port p).link = .up) : linkUp p s = s := if_pos h

theorem linkUp_of_down {p : Port} {s : State} (h : (s.port p).link = .down) :
    linkUp p s =
      s.setPort p { s.port p with link := .up, timingQ := [], ordinaryQ := [], tx := none, receiving := none } :=
  if_neg (by rw [h]; nofun)

theorem linkDown_of_down {p : Port} {s : State} (h : (s.port p).link = .down) : linkDown p s = s := if_pos h

/-- Ending a transmission clears the sending mark of the port's departures. -/
theorem endSending_departure (p : Port) (d : Departure) :
    Departure.endSending p d = if d.port = p then { d with sending := false } else d := by
  by_cases h : d.port = p <;> simp [Departure.endSending, h]

theorem endSending_eq (s : State) (p : Port) :
    s.endSending p =
      State.setPort
        { s with departing := s.departing.map fun d => if d.port = p then { d with sending := false } else d } p
        { s.port p with tx := none } := by
  rw [State.endSending, funext (endSending_departure p)]
  cases p <;> rfl

theorem linkDown_of_up {p : Port} {s : State} (h : (s.port p).link = .up) :
    linkDown p s =
      makeResetDue (((s.port p).timingQ ++ (s.port p).ordinaryQ).any EgressEntry.ofRestart)
        (State.setPort
          { s with departing := s.departing.map fun d => if d.port = p then { d with sending := false } else d } p
          { s.port p with link := .down, timingQ := [], ordinaryQ := [], tx := none, receiving := none }) := by
  have hup : ¬ (s.port p).link = .down := by rw [h]; nofun
  rw [linkDown, if_neg hup, endSending_eq, State.setPort_setPort, List.any_append]

theorem ofRestart_iff {e : EgressEntry} : e.ofRestart = true ↔ e.origin = .response true := decide_eq_true_iff

/-- Settles O15. -/
theorem linkAndTransmitterChanges : Obligations.LinkAndTransmitterChanges := by
  intro p s x quiet
  refine ⟨fun h => ⟨congrArg Host.Outcome.next (linkUp_of_down h), congrArg Host.Outcome.next (linkDown_of_down h)⟩,
    fun h => ?_, fun h => congrArg Host.Outcome.next ?_, fun f h hw => congrArg Host.Outcome.next ?_,
    fun f b h hw => congrArg Host.Outcome.next ?_⟩
  · refine ⟨congrArg Host.Outcome.next (linkUp_of_up h), fun hno => congrArg Host.Outcome.next ?_,
      fun ⟨e, he, hr⟩ => congrArg Host.Outcome.next ?_⟩
    · have hany : (x.timingQ ++ x.ordinaryQ).any EgressEntry.ofRestart = false :=
        List.any_eq_false.mpr fun e he hr => hno e he (ofRestart_iff.mp hr)
      rw [linkDown_of_up h, hany]
      rfl
    · have hany : (x.timingQ ++ x.ordinaryQ).any EgressEntry.ofRestart = true :=
        List.any_eq_true.mpr ⟨e, he, ofRestart_iff.mpr hr⟩
      rw [linkDown_of_up h, hany]
      rfl
  · rw [transmitEnd, h]
  · simp only [transmitEnd, show (s.port p).tx = some f from h, hw]
    rfl
  · simp only [transmitEnd, show (s.port p).tx = some f from h, hw]
    exact endSending_eq s p

/-! ### Reception (R2 to R4) -/

theorem frameAccepted_iff {bytes : List Byte} {cut : Bool} :
    frameAccepted bytes cut = true ↔ 64 ≤ bytes.length ∧ bytes.length ≤ 2000 ∧ fcsCorrect bytes = true ∧ cut = false := by
  simp [frameAccepted, and_assoc]

theorem not_frameAccepted {bytes : List Byte} {cut : Bool}
    (h : bytes.length < 64 ∨ 2000 < bytes.length ∨ fcsCorrect bytes = false ∨ cut = true) :
    frameAccepted bytes cut = false := by
  rw [Bool.eq_false_iff, ne_eq, frameAccepted_iff]
  rintro ⟨hlow, hhigh, hfcs, hcut⟩
  rcases h with h | h | h | h
  · omega
  · omega
  · exact Bool.false_ne_true (h.symm.trans hfcs)
  · exact Bool.false_ne_true (hcut.symm.trans h)

theorem fcsCorrect_append (content : List Byte) : fcsCorrect (content ++ fcsOf content) = true := by
  have hlen : (content ++ fcsOf content).length - 4 = content.length := by
    rw [List.length_append]
    exact Nat.add_sub_cancel content.length 4
  rw [fcsCorrect, contentOf, hlen, List.drop_left, List.take_left, beq_self_eq_true]

/-! ### Departures leave the rest of a port alone -/

/-- `y` is `x` but for the frame in transmission and for the ordinary queue. -/
def PortState.sentBut (x y : PortState) : Prop := ∃ tx oq, y = { x with tx := tx, ordinaryQ := oq }

theorem PortState.sentBut.refl (x : PortState) : x.sentBut x := ⟨_, _, rfl⟩

theorem PortState.sentBut.trans {x y z : PortState} (h : x.sentBut y) (k : y.sentBut z) : x.sentBut z := by
  obtain ⟨_, _, rfl⟩ := h
  obtain ⟨_, _, rfl⟩ := k
  exact ⟨_, _, rfl⟩

theorem raise_sentBut (e : Event) (s : State) (p : Port) : (s.port p).sentBut ((raise e s).port p) := by
  obtain ⟨qn, qd, gs, k, h⟩ := raise_frame e s
  rw [h]
  cases p
  · exact ⟨_, _, rfl⟩
  · exact ⟨_, _, rfl⟩

theorem consult_sentBut (q : Port) (bytes : List Byte) (ing egr : Stamp) (mark : CorrMark) (s : State) (p : Port) :
    (s.port p).sentBut ((consult q bytes ing egr mark s).2.port p) := by
  have hres : ∀ r : List ResRec, (s.port p).sentBut (State.port { s with residence := r } p) := fun r => by
    cases p <;> exact .refl _
  unfold consult
  dsimp only
  split
  · exact .refl _
  · split
    · exact hres _
    · split
      · exact .refl _
      · split
        · split
          · exact hres _
          · exact raise_sentBut _ s p
        · exact .refl _

theorem answered_sentBut (x : PortState) (sending : Bool) (bytes : List Byte) : x.sentBut (x.answered sending bytes) := by
  cases sending
  · exact .refl x
  · exact ⟨_, _, rfl⟩

theorem setExch_port (s : State) (x : Exchange) (p : Port) : ({ s with exch := x } : State).port p = s.port p := by
  cases p <;> rfl

theorem probeDeparted_port (seq : BitVec 16) (st : Stamp) (s : State) (p : Port) : (probeDeparted seq st s).port p = s.port p := by
  unfold probeDeparted
  exact iteInduction (motive := fun t : State => t.port p = s.port p) (fun _ => rfl) fun _ => setExch_port s _ p

theorem handOver_sentBut (d : Departure) (s : State) (p : Port) : (s.port p).sentBut ((handOver d s).port p) := by
  obtain ⟨ing, mark, -, h⟩ | ⟨seq, -, h⟩ | ⟨-, h⟩ := handOver_cases d s
  · rw [h, State.setPort_get]
    have hconsult := consult_sentBut d.port d.entry.bytes ing (egressStamp s d.latency) mark s p
    by_cases hp : p = d.port
    · subst hp
      rw [if_pos rfl]
      exact hconsult.trans (answered_sentBut _ _ _)
    · rw [if_neg hp]
      exact hconsult
  · rw [h, probeDeparted_port]
    exact .refl _
  · rw [h]
    exact .refl _

theorem handOverThose_sentBut (now : Departure → Bool) (s : State) (p : Port) :
    (s.port p).sentBut ((handOverThose now s).port p) := by
  have hfold : ∀ (l : List Departure) (t : State), (t.port p).sentBut ((l.foldl (fun t d => handOver d t) t).port p) := by
    intro l
    induction l with
    | nil => exact fun _ => .refl _
    | cons d l ih => exact fun t => (handOver_sentBut d t p).trans (ih _)
  have hstart : State.port { s with departing := s.departing.filter fun d => !now d } p = s.port p := by
    cases p <;> rfl
  exact hstart ▸ hfold _ _

/-! ### The end of a tick -/

theorem showOutputs_port (v : TickView) (s : State) (p : Port) : (showOutputs v s).port p = s.port p := by
  obtain ⟨_, _, h⟩ := showOutputs_frame v s
  rw [h]
  cases p <;> rfl

theorem closeTick_port (s : State) (p : Port) : (closeTick s).port p = s.port p := by
  unfold closeTick
  split
  · exact showOutputs_port _ s p
  · rfl

theorem limitPulses_port (s : State) (p : Port) : (limitPulses s).port p = s.port p := by
  cases p <;> rfl

theorem tickOutputs_port (s : State) (p : Port) : (tickOutputs s).port p = s.port p := by
  have hview : ∀ (t : State) (v : Option TickView), State.port { t with view := v } p = t.port p := fun t v => by
    cases p <;> rfl
  rw [tickOutputs, settleTick_port, hview, closeTick_port, limitPulses_port]

/-- The stamps of a tick are formed on both ports before the departures are handed over. -/
def tickStamps (inp : TickIn) (s : State) : State := takeIngress .d inp.rxD (takeIngress .n inp.rxN s)

theorem tickEnd_eq (inp : TickIn) (s : State) : tickEnd inp s = tickOutputs (takeEgress (tickStamps inp s)) := rfl

/-- Whether a port's line carries a frame at a tick. -/
def rxAt (inp : TickIn) : Port → Bool
  | .n => inp.rxN
  | .d => inp.rxD

/-- A port after its stamps of a tick (R3). -/
theorem tickStamps_port (inp : TickIn) (s : State) (p : Port) :
    (tickStamps inp s).port p =
      { s.port p with
        records :=
          (s.port p).records ++ (s.port p).unstamped.map fun a => { bytes := a.bytes, stamp := ingressStamp s a.latency }
        unstamped := []
        receiving :=
          if rxAt inp p = true ∧ (s.port p).link = .up then some (ingressStamp s (s.port p).ingressLat)
          else (s.port p).receiving } := by
  cases p <;> rfl

theorem tickEnd_sentBut (inp : TickIn) (s : State) (p : Port) :
    ((tickStamps inp s).port p).sentBut ((tickEnd inp s).port p) := by
  rw [tickEnd_eq, tickOutputs_port]
  exact handOverThose_sentBut _ _ p

theorem joinedBy_records {x y : PortState} (h : x.joinedBy y) : y.records = x.records ∧ y.unstamped = x.unstamped := by
  obtain ⟨_, _, rfl, -⟩ := h
  exact ⟨rfl, rfl⟩

theorem State.evolves.joined {s t : State} {F : List Field} (h : s.evolves F t) (p : Port) : (s.port p).joinedBy (t.port p) := by
  cases p
  · exact h.portN
  · exact h.portD

theorem tickEnd_time (inp : TickIn) (s : State) : (tickEnd inp s).time = s.time :=
  tickEnd_sameBut inp s .time (by decide)

theorem tickEnd_elapsed (inp : TickIn) (s : State) : (tickEnd inp s).elapsed = s.elapsed :=
  tickEnd_sameBut inp s .elapsed (by decide)

/-- Settles O16. -/
theorem frameReceptionChecks : Obligations.FrameReceptionChecks := by
  refine ⟨fun p bytes cut s hup => ⟨fun hok => ⟨fun st hst => congrArg Host.Outcome.next ?_, fun hst => congrArg Host.Outcome.next ?_⟩,
    fun hno => congrArg Host.Outcome.next ?_⟩, fun p bytes cut s hdown => congrArg Host.Outcome.next ?_, fun inp s p => ?_,
    fcsCorrect_append⟩
  · simp only [frameReceived, hup, hst, frameAccepted_iff.mpr hok, if_true]
  · simp only [frameReceived, hup, hst, frameAccepted_iff.mpr hok, if_true]
  · cases hst : (s.port p).receiving with
    | some st =>
      simp only [frameReceived, hup, hst, not_frameAccepted hno]
      rfl
    | none =>
      have hself : s.setPort p { s.port p with receiving := none } = s := by
        rw [← hst]
        exact s.setPort_self p
      rw [hself]
      simp only [frameReceived, hup, hst, not_frameAccepted hno]
      rfl
  · simp only [frameReceived, hdown]
  · refine ⟨tickAll inp s, rfl, ?_⟩
    obtain ⟨hrec, hun⟩ := joinedBy_records (((tickStart_evolves inp s).joined p).trans ((takeSteps_evolves (tickStart inp s)).joined p))
    obtain ⟨tx, oq, hend⟩ := tickEnd_sentBut inp (takeSteps (tickStart inp s)) p
    rw [tickAll_eq, hend, tickStamps_port, hrec, hun, tickEnd_time, tickEnd_elapsed]
    exact ⟨rfl, rfl⟩

/-! ### The classifier (R16 to R19) -/

theorem bitsAt_eq_iff {w : Nat} {bs : List Byte} {off len v : Nat} (hw : 256 ^ len = 2 ^ w) (hv : v < 2 ^ w) :
    bitsAt w bs off len = BitVec.ofNat w v ↔ fieldAt bs off len = v := by
  have hlt : fieldAt bs off len < 2 ^ w := hw ▸ fieldAt_lt bs off len
  rw [← BitVec.toNat_inj, bitsAt, BitVec.toNat_ofNat, BitVec.toNat_ofNat, Nat.mod_eq_of_lt hlt, Nat.mod_eq_of_lt hv]

theorem forManagement_iff {station : Addr} {f : Facts} :
    forManagement station f = true ↔ (f.dst = station ∨ f.dst = 0xFFFFFFFFFFFF#48) ∧ f.etherType = 0x9A3C#16 := by
  simp only [forManagement, Bool.and_eq_true, Bool.or_eq_true, beq_iff_eq]
  rfl

theorem classifyNext_cons {p : Port} {s : State} {r : FrameRec} {tail : List FrameRec} (h : (s.port p).records = r :: tail) :
    classifyNext p s =
      applyDisposition p r (dispositionOf s p (contentOf r.bytes)) (s.setPort p { s.port p with records := tail }) := by
  rw [classifyNext, h]

theorem dispositionOf_managed {s : State} {p : Port} {content : List Byte}
    (h : forManagement s.station (factsOf content) = true) :
    dispositionOf s p content = { manage := true, fwd := none, copy := none } := if_pos h

section
variable {s : State} {p : Port} {content : List Byte} (h : ¬ forManagement s.station (factsOf content) = true)
include h

/-- The first entry that matches gives the disposition (R18). -/
theorem dispositionOf_matched (i : Fin 32) (hi : s.classify[i].isMatch p content (factsOf content) = true)
    (hfirst : ∀ j : Fin 32, j < i → s.classify[j].isMatch p content (factsOf content) = false) :
    dispositionOf s p content = s.classify[i].disposition p content (factsOf content) := by
  have hfind : (s.classify.toList.find? fun e => e.isMatch p content (factsOf content)) = some s.classify[i] := by
    refine List.find?_eq_some_iff_getElem.mpr ⟨hi, i.val, by simp, by simp, fun j hj => ?_⟩
    rw [Vector.getElem_toList, show s.classify[j] = s.classify[(⟨j, hj.trans i.isLt⟩ : Fin 32)] from rfl, hfirst _ hj]
    rfl
  simp only [dispositionOf, if_neg h, hfind]

theorem dispositionOf_default (hno : ∀ i : Fin 32, s.classify[i].isMatch p content (factsOf content) = false) :
    dispositionOf s p content = { manage := false, fwd := some (.ordinary, none), copy := none } := by
  have hfind : (s.classify.toList.find? fun e => e.isMatch p content (factsOf content)) = none := by
    refine List.find?_eq_none.mpr fun e he => ?_
    obtain ⟨i, hi, rfl⟩ := Vector.mem_iff_getElem.mp (Vector.mem_toList_iff.mp he)
    exact Bool.eq_false_iff.mp (hno ⟨i, hi⟩)
  simp only [dispositionOf, if_neg h, hfind]

end

/-- Settles O17. -/
theorem classifierDecides : Obligations.ClassifierDecides := by
  intro p s rec tail hrec content f s1 forPart
  have hnext : ∀ {t : State}, applyDisposition p rec (dispositionOf s p content) s1 = t →
      exec (.classifyFrame p) s = .next t := fun ht =>
    congrArg Host.Outcome.next ((classifyNext_cons hrec).trans ht)
  have hstation : s1.requests = s.requests := State.setPort_requests s p _
  refine ⟨fun hmine => ?_, fun hno => ⟨fun i hi hfirst => hnext ?_, fun hnone => hnext ?_⟩⟩
  · have hmanaged : applyDisposition p rec (dispositionOf s p content) s1 = receiveRequest p rec.bytes s1 := by
      rw [dispositionOf_managed (forManagement_iff.mpr hmine)]
      rfl
    intro data
    refine ⟨fun ⟨hlen, hversion, hkind, hroom⟩ => hnext (hmanaged.trans ?_), fun hbad => hnext (hmanaged.trans ?_)⟩
    · have hgood : ¬ (data.length < 8 ∨ byteAt data 0 ≠ 1#8 ∨ byteAt data 1 ≠ 1#8) := by
        rintro (h | h | h)
        · omega
        · exact h hversion
        · exact h hkind
      rw [← hstation] at hroom
      exact (if_neg hgood).trans ((if_pos hroom).trans (by rw [hstation]))
    · by_cases hgood : data.length < 8 ∨ byteAt data 0 ≠ 1#8 ∨ byteAt data 1 ≠ 1#8
      · exact if_pos hgood
      · refine (if_neg hgood).trans (if_neg ?_)
        rw [hstation]
        simp only [not_or] at hgood
        obtain ⟨hlen, hversion, hkind⟩ := hgood
        rcases hbad with h | h | h | h
        · exact absurd h hlen
        · exact absurd h hversion
        · exact absurd h hkind
        · omega
  · rw [dispositionOf_matched (forManagement_iff.not.mpr hno) i hi hfirst]
  · rw [dispositionOf_default (forManagement_iff.not.mpr hno) hnone]
    rfl

/-- Settles O19. -/
theorem actionsGiveDispositions : Obligations.ActionsGiveDispositions := by
  intro e p r s content f go sendAs markOf copied
  have hgo : ∀ {d : Disposition} {t : State}, e.disposition p content f = d → applyDisposition p r d s = t → go = t :=
    fun hd ht => by rw [show go = applyDisposition p r (e.disposition p content f) s from rfl, hd, ht]
  refine ⟨fun ha => hgo (by simp only [ClassEntry.disposition, ha]; rfl) rfl,
    fun ha => hgo (by simp only [ClassEntry.disposition, ha]; rfl) rfl,
    fun hpos => ⟨fun ha => ?_, fun ha => hgo (by simp only [ClassEntry.disposition, ha, hpos]; rfl) ?_⟩,
    fun q hpos => ⟨fun ha => hgo (by simp only [ClassEntry.disposition, ha, hpos]; rfl) rfl,
      fun ha hp => hgo (by simp only [ClassEntry.disposition, ha, hpos, hp]; rfl) rfl,
      fun ha hp => hgo (by simp only [ClassEntry.disposition, ha, hpos, hp]; rfl) rfl,
      fun ha hp => hgo (by simp only [ClassEntry.disposition, ha, hpos, hp]; rfl) rfl,
      fun ha hp => hgo (by simp only [ClassEntry.disposition, ha, hpos, hp]; rfl) rfl⟩⟩
  · rcases ha with ha | ha
    · exact hgo (by simp only [ClassEntry.disposition, ha, hpos]; rfl) rfl
    · exact hgo (d := { manage := false, fwd := some (e.cls, none), copy := none })
        (by simp only [ClassEntry.disposition, ha, hpos, Option.map_none, ite_self]) rfl
  · simp only [Option.map_none, ite_self]
    rfl

/-! ### Queues and departures (R8 to R11) -/

theorem arrive_timing_of_full {p : Port} {e : EgressEntry} {s : State} (hl : (s.port p).link = .up)
    (hq : 8 ≤ (s.port p).timingQ.length) : arrive p .timing e s = raise (.queueDrop p) s := by
  have hdown : ¬ (s.port p).link = .down := by rw [hl]; nofun
  exact (if_neg hdown).trans (if_neg (not_lt.mpr hq))

theorem transmitStart_idle {p : Port} {s : State}
    (h : (s.port p).link = .down ∨ (s.port p).tx ≠ none ∨ ((s.port p).timingQ = [] ∧ (s.port p).ordinaryQ = [])) :
    transmitStart p s = s := by
  unfold transmitStart
  dsimp only
  rcases h with h | h | ⟨ht, ho⟩
  · exact if_neg fun hup => absurd (h.symm.trans hup.1) (by decide)
  · exact if_neg fun hup => h hup.2
  · rw [ht, ho, ite_self]

theorem transmitStart_of_timing {p : Port} {s : State} {e : EgressEntry} {rest : List EgressEntry}
    (hl : (s.port p).link = .up) (htx : (s.port p).tx = none) (hq : (s.port p).timingQ = e :: rest) :
    transmitStart p s = depart p e (s.setPort p { s.port p with timingQ := rest }) := by
  simp only [transmitStart, hl, htx, hq, and_self, if_true]

theorem transmitStart_of_ordinary {p : Port} {s : State} {e : EgressEntry} {rest : List EgressEntry}
    (hl : (s.port p).link = .up) (htx : (s.port p).tx = none) (ht : (s.port p).timingQ = [])
    (hq : (s.port p).ordinaryQ = e :: rest) :
    transmitStart p s = depart p e (s.setPort p { s.port p with ordinaryQ := rest }) := by
  simp only [transmitStart, hl, htx, ht, hq, and_self, if_true]

/-- A frame whose stamp goes to no block leaves with its bytes (R10, R11); a RESTART response makes the reset due. -/
theorem depart_unstamped {p : Port} {e : EgressEntry} {s : State} (hm : e.isMarked = false) (ht : e.takesStamp = false) :
    depart p e s =
      makeResetDue e.ofRestart
        (s.setPort p { s.port p with tx := some { wire := some (sentBytes e.bytes), origin := e.origin } }) := by
  simp only [depart, hm, ht]
  rfl

theorem unstamped_of_origin {e : EgressEntry} (hf : ∀ i m, e.origin ≠ .forwarded i (some m)) (hp : ∀ q, e.origin ≠ .probe q) :
    e.isMarked = false ∧ e.takesStamp = false := by
  unfold EgressEntry.isMarked EgressEntry.takesStamp
  cases h : e.origin with
  | forwarded i m =>
    cases m with
    | none => exact ⟨rfl, rfl⟩
    | some m => exact (hf i m h).elim
  | probe q => exact (hp q h).elim
  | response b => exact ⟨rfl, rfl⟩
  | notification => exact ⟨rfl, rfl⟩

theorem makeResetDue_origin (e : EgressEntry) (s : State) :
    makeResetDue e.ofRestart s = if e.origin = .response true then { s with restart := .due } else s := by
  by_cases h : e.origin = .response true
  · rw [if_pos h, ofRestart_iff.mpr h]
    rfl
  · rw [if_neg h, Bool.eq_false_iff.mpr (ofRestart_iff.not.mpr h)]
    rfl

/-- Settles O20. -/
theorem egressQueuesFillAndEmpty : Obligations.EgressQueuesFillAndEmpty := by
  refine ⟨fun p e s => ⟨fun hd => ⟨arrive_of_down hd, arrive_of_down hd⟩, fun hu => ⟨arrive_timing_of_room hu,
    arrive_timing_of_full hu, arrive_ordinary_of_room hu, arrive_ordinary_of_full hu⟩⟩,
    fun p s h => congrArg Host.Outcome.next (transmitStart_idle h), fun p s e rest hl htx hf hp => ?_⟩
  obtain ⟨hm, hs⟩ := unstamped_of_origin hf hp
  intro out after
  have hleaves : ∀ x : PortState,
      depart p e (s.setPort p x) = after (s.setPort p { x with tx := out }) := fun x => by
    rw [depart_unstamped hm hs, makeResetDue_origin, State.setPort_setPort, State.setPort_port]
    rfl
  exact ⟨fun hq => congrArg Host.Outcome.next ((transmitStart_of_timing hl htx hq).trans (hleaves _)),
    fun ht hq => congrArg Host.Outcome.next ((transmitStart_of_ordinary hl htx ht hq).trans (hleaves _))⟩

end Sys2Proof.Machine
end

section
/-!
PROOFS. The outer facts of a frame, its timing header, and the match of an entry (R20 to R25, R51).
-/

namespace Sys2Proof.Machine

/-! ### Fields byte by byte -/

theorem fieldAt_zero (b : List Byte) (off : Nat) : fieldAt b off 0 = 0 := by
  rw [fieldAt, slice, List.take_zero]
  rfl

/-- A field of one more byte. -/
theorem fieldAt_succ {b : List Byte} {off n : Nat} (h : off + n < b.length) :
    fieldAt b off (n + 1) = fieldAt b off n * 256 + (byteAt b (off + n)).toNat := by
  have hlt : n < (b.drop off).length := by
    rw [List.length_drop]
    omega
  have hslice : slice b off (n + 1) = slice b off n ++ [byteAt b (off + n)] := by
    rw [slice, List.take_succ_eq_append_getElem hlt, List.getElem_drop, byteAt, List.getD_eq_getElem _ _ h, slice]
  rw [fieldAt, hslice, beNat_append]
  simp [fieldAt, beNat]

/-- The two low bits of a field of two bytes are those of its second byte. -/
theorem fieldAt_two_bits {b : List Byte} {off : Nat} (h : off + 2 ≤ b.length) :
    ((byteAt b (off + 1)).getLsbD 0 = true ↔ fieldAt b off 2 % 2 = 1) ∧
      ((byteAt b (off + 1)).getLsbD 1 = true ↔ fieldAt b off 2 / 2 % 2 = 1) := by
  have hfield : fieldAt b off 2 = fieldAt b off 1 * 256 + (byteAt b (off + 1)).toNat := fieldAt_succ (by omega)
  simp only [BitVec.getLsbD, Nat.testBit, Nat.shiftRight_eq_div_pow, Nat.one_and_eq_mod_two, bne_iff_ne, ne_eq, hfield]
  omega

/-! ### The outer facts -/

theorem tagged_iff {content : List Byte} : bitsAt 16 content 12 2 = 0x8100#16 ↔ fieldAt content 12 2 = 0x8100 :=
  bitsAt_eq_iff (by decide) (by decide)

theorem factsOf_tagged {content : List Byte} (h : fieldAt content 12 2 = 0x8100) :
    (factsOf content).tci = some (BitVec.ofNat 16 (fieldAt content 14 2)) ∧ (factsOf content).dataPos = 18 ∧
      (factsOf content).etherType = BitVec.ofNat 16 (fieldAt content 16 2) :=
  ⟨if_pos (tagged_iff.mpr h), if_pos (tagged_iff.mpr h), if_pos (tagged_iff.mpr h)⟩

theorem factsOf_untagged {content : List Byte} (h : ¬ fieldAt content 12 2 = 0x8100) :
    (factsOf content).tci = none ∧ (factsOf content).dataPos = 14 ∧
      (factsOf content).etherType = BitVec.ofNat 16 (fieldAt content 12 2) :=
  ⟨if_neg (tagged_iff.not.mpr h), if_neg (tagged_iff.not.mpr h), if_neg (tagged_iff.not.mpr h)⟩

theorem factsOf_udp (content : List Byte) :
    (factsOf content).udp = udpFacts content (factsOf content).dataPos (factsOf content).etherType := rfl

/-! ### The timing header -/

theorem headerParses_iff {content : List Byte} {pos avail : Nat} :
    headerParses content pos avail = true ↔
      28 ≤ avail ∧ byteAt content (pos + 1) = 2#8 ∧ 28 ≤ fieldAt content (pos + 2) 2 ∧ fieldAt content (pos + 2) 2 ≤ avail := by
  simp [headerParses, and_assoc]

/-- A carrier gives a position where its span lies, when a header parses there. -/
theorem headerPos_iff {content : List Byte} {f : Facts} {c : Carrier} {pos : Nat} :
    headerPos content f c = some pos ↔
      ∃ avail, carrierSpan content f c = some (pos, avail) ∧ headerParses content pos avail = true := by
  unfold headerPos
  split
  · rename_i q avail h
    rw [h]
    by_cases hp : headerParses content q avail = true
    · rw [if_pos hp, Option.some.injEq]
      constructor
      · rintro rfl
        exact ⟨avail, rfl, hp⟩
      · rintro ⟨_, heq, -⟩
        exact congrArg Prod.fst (Option.some.inj heq)
    · rw [if_neg hp]
      constructor
      · exact nofun
      · rintro ⟨_, heq, hq⟩
        cases heq
        exact (hp hq).elim
  · rename_i h
    rw [h]
    exact ⟨nofun, fun ⟨_, heq, _⟩ => nomatch heq⟩

theorem carrierSpan_l2 {content : List Byte} {f : Facts} {pos avail : Nat} :
    carrierSpan content f .l2 = some (pos, avail) ↔
      f.etherType ≠ 0x8100#16 ∧ pos = f.dataPos ∧ avail = content.length - f.dataPos := by
  by_cases h : f.etherType = 0x8100#16
  · simp [carrierSpan, h]
  · simp [carrierSpan, h, eq_comm]

theorem carrierSpan_udp4 {content : List Byte} {f : Facts} {pos avail : Nat} :
    carrierSpan content f .udp4 = some (pos, avail) ↔ ∃ u ∈ f.udp, pos = u.payPos ∧ avail = u.payLen := by
  simp [carrierSpan, eq_comm]

/-! ### When an entry matches -/

theorem destOk_iff {dest : Option (Addr × Addr)} {dst : Addr} :
    destOk dest dst = true ↔ ∀ x ∈ dest, dst &&& x.2 = x.1 &&& x.2 := by
  cases dest <;> simp [destOk]

theorem vlanOk_iff {v : Option VlanMatch} {tci : Option (BitVec 16)} :
    vlanOk v tci = true ↔
      (v = some .untagged → tci = none) ∧ ∀ n, v = some (.id n) → ∃ t ∈ tci, t.setWidth 12 = n := by
  cases v with
  | none => simp [vlanOk]
  | some m =>
    cases m with
    | untagged => cases tci <;> simp [vlanOk]
    | id n => cases tci <;> simp [vlanOk, vlanId]

theorem udpOk_iff {e : ClassEntry} {udp : Option UdpFacts} :
    udpOk e udp = true ↔ (∀ x ∈ e.udpPort, ∃ u ∈ udp, u.dstPort = x) ∧ (e.carrier = .udp4 → udp.isSome = true) := by
  cases udp with
  | none =>
    cases h : e.udpPort <;> simp [udpOk, h]
  | some u =>
    cases h : e.udpPort <;> simp [udpOk, h]

theorem kindIn_iff {kinds : BitVec 5} {kind : Nat} : kindIn kinds kind = true ↔ 1 ≤ kind ∧ kinds.getLsbD (kind - 1) = true := by
  simp [kindIn]

theorem headerOk_iff {e : ClassEntry} {content : List Byte} {f : Facts} :
    headerOk e content f = true ↔
      ((e.kinds.isSome = true ∨ e.domain.isSome = true) →
        ∃ pos, headerPos content f e.carrier = some pos ∧
          (∀ k ∈ e.kinds, 1 ≤ (readHdr content pos).kind ∧ k.getLsbD ((readHdr content pos).kind - 1) = true) ∧
          ∀ d ∈ e.domain, (readHdr content pos).domain = d) := by
  cases hpos : headerPos content f e.carrier with
  | none => cases hk : e.kinds <;> cases hd : e.domain <;> simp [headerOk, hk, hd, hpos]
  | some pos => cases hk : e.kinds <;> cases hd : e.domain <;> simp [headerOk, hk, hd, hpos, kindIn_iff]

theorem portOk_iff {e : ClassEntry} {p : Port} : e.portOk p = true ↔ (p = .n → e.portN = true) ∧ (p = .d → e.portD = true) := by
  cases p <;> simp [ClassEntry.portOk]

/-- Settles O18. -/
theorem entriesMatchByTheirFields : Obligations.EntriesMatchByTheirFields := by
  refine ⟨fun content => ?_, fun content pos => ?_, fun b off n => ⟨fieldAt_zero b off, fieldAt_succ⟩, fun e p content f => ?_⟩
  · intro f tagged
    refine ⟨rfl, rfl, factsOf_tagged, factsOf_untagged, ?_, fun pos => ⟨?_, ?_, ?_⟩⟩
    · intro data ihl total udpLen layers
      have hlayers : layers ↔
          f.etherType = 0x0800#16 ∧ (byteAt data 0).toNat / 16 = 4 ∧ 20 ≤ ihl ∧ ihl ≤ data.length ∧ ihl + 8 ≤ total ∧
            total ≤ data.length ∧ fieldAt data 6 2 % 2 ^ 14 = 0 ∧ byteAt data 9 = 17#8 ∧ 8 ≤ udpLen ∧ udpLen ≤ total - ihl := by
        constructor
        · rintro ⟨h1, h2, h3, h4, h5, h6, h7, h8, h9, h10⟩
          exact ⟨h1, h2, h3, h4, h5, h6, h7, h8, h9, by omega⟩
        · rintro ⟨h1, h2, h3, h4, h5, h6, h7, h8, h9, h10⟩
          exact ⟨h1, h2, h3, h4, h5, h6, h7, h8, h9, by omega⟩
      rw [show f.udp = _ from factsOf_udp content]
      exact ⟨fun h => if_pos (hlayers.mp h), fun h => if_neg (hlayers.not.mp h)⟩
    · rw [headerPos_iff]
      simp only [carrierSpan_l2, headerParses_iff]
      constructor
      · rintro ⟨avail, ⟨hne, hpos, rfl⟩, hp⟩
        exact ⟨hne, hpos, hp⟩
      · rintro ⟨hne, hpos, hp⟩
        exact ⟨_, ⟨hne, hpos, rfl⟩, hp⟩
    · rw [headerPos_iff]
      simp only [carrierSpan_udp4, headerParses_iff]
      constructor
      · rintro ⟨avail, ⟨u, hu, hpos, rfl⟩, hp⟩
        exact ⟨u, hu, hpos, hp⟩
      · rintro ⟨u, hu, hpos, hp⟩
        exact ⟨_, ⟨u, hu, hpos, rfl⟩, hp⟩
    · rw [ne_eq, headerPos_iff]
      exact fun ⟨_, h, _⟩ => nomatch h
  · exact ⟨rfl, rfl, rfl, rfl, rfl, rfl, rfl, rfl, fun h => fieldAt_two_bits (off := pos + 6) h⟩
  · simp only [ClassEntry.isMatch, Bool.and_eq_true, destOk_iff, vlanOk_iff, udpOk_iff, headerOk_iff, portOk_iff, and_assoc]
    have htype : (e.etherType == none || e.etherType == some f.etherType) = true ↔ ∀ x ∈ e.etherType, f.etherType = x := by
      cases e.etherType with
      | none => simp
      | some x => simpa using eq_comm
    rw [htype]

end Sys2Proof.Machine
end

section
/-!
PROOFS. The bytes of a corrected frame and its UDP checksum (R38, R47, R48).
-/

namespace Sys2Proof.Machine

/-! ### Bytes written over others -/

section
variable {bs new : List Byte} {off : Nat} (h : off + new.length ≤ bs.length)
include h

theorem overlay_length : (overlay bs off new).length = bs.length := by
  simp only [overlay, List.length_append, List.length_take, List.length_drop]
  omega

theorem overlay_getElem? {i : Nat} (hi : i < off ∨ off + new.length ≤ i) : (overlay bs off new)[i]? = bs[i]? := by
  have htake : (bs.take off).length = off := by
    rw [List.length_take]
    omega
  rcases hi with hi | hi
  · rw [overlay, List.append_assoc, List.getElem?_append_left (by omega), List.getElem?_take_of_lt hi]
  · have hpre : (bs.take off ++ new).length = off + new.length := by rw [List.length_append, htake]
    rw [overlay, List.getElem?_append_right (by omega), hpre, List.getElem?_drop]
    congr 1
    omega

theorem slice_overlay_same : slice (overlay bs off new) off new.length = new := by
  have htake : (bs.take off).length = off := by
    rw [List.length_take]
    omega
  rw [overlay, List.append_assoc, slice_append_right _ _ (by omega), htake, Nat.sub_self,
    slice_append_whole _ _ le_rfl, Nat.sub_self, slice, List.take_zero, List.append_nil]

end

/-- Two lists with the same bytes in a range have the same slice there. -/
theorem slice_congr {xs ys : List Byte} {off n : Nat} (h : ∀ i, off ≤ i → i < off + n → xs[i]? = ys[i]?) :
    slice xs off n = slice ys off n := by
  refine List.ext_getElem? fun i => ?_
  rw [slice, slice, List.getElem?_take, List.getElem?_take, List.getElem?_drop, List.getElem?_drop]
  split
  · exact h _ (by omega) (by omega)
  · rfl

theorem fieldAt_congr {xs ys : List Byte} {off n : Nat} (h : ∀ i, off ≤ i → i < off + n → xs[i]? = ys[i]?) :
    fieldAt xs off n = fieldAt ys off n := by
  rw [fieldAt, slice_congr h, fieldAt]

/-! ### One's complement sums -/

theorem onesAdd_le {a b : Nat} (ha : a ≤ 65535) (hb : b ≤ 65535) : onesAdd a b ≤ 65535 := by
  unfold onesAdd
  omega

theorem onesSum_le (bs : List Byte) : onesSum bs ≤ 65535 := by
  have hfold : ∀ (l : List (List Byte)) (acc : Nat), acc ≤ 65535 →
      l.foldl (fun acc w => onesAdd acc ((byteAt w 0).toNat * 256 + (byteAt w 1).toNat)) acc ≤ 65535 := by
    intro l
    induction l with
    | nil => exact fun _ h => h
    | cons w l ih =>
      intro acc hacc
      have h0 := (byteAt w 0).isLt
      have h1 := (byteAt w 1).isLt
      exact ih _ (onesAdd_le hacc (by omega))
  exact hfold _ 0 (Nat.zero_le _)

/-- A one's complement addition is an addition modulo 65,535. -/
theorem onesAdd_mod (a b : Nat) : onesAdd a b % 65535 = (a + b) % 65535 := by
  unfold onesAdd
  omega

theorem updateChecksum_zero (old new : List Byte) : updateChecksum 0 old new = 0 := rfl

/-- The law of the updated checksum (R47). -/
theorem updateChecksum_sum {c : Nat} (hc : c < 65536) (hne : c ≠ 0) (old new : List Byte) :
    1 ≤ updateChecksum c old new ∧ updateChecksum c old new ≤ 65535 ∧
      (updateChecksum c old new + onesSum new) % 65535 = (c + onesSum old) % 65535 := by
  have hn := onesSum_le new
  have ho := onesSum_le old
  have hinner := onesAdd_le (a := onesNeg c) (b := onesSum new) (by unfold onesNeg; omega) hn
  have houter := onesAdd_le hinner (b := onesNeg (onesSum old)) (by unfold onesNeg; omega)
  have hm1 := onesAdd_mod (onesNeg c) (onesSum new)
  have hm2 := onesAdd_mod (onesAdd (onesNeg c) (onesSum new)) (onesNeg (onesSum old))
  rw [updateChecksum, if_neg hne]
  generalize onesAdd (onesAdd (onesNeg c) (onesSum new)) (onesNeg (onesSum old)) = y at *
  generalize onesAdd (onesNeg c) (onesSum new) = x at *
  by_cases hy : onesNeg y = 0
  · rw [if_pos hy]
    simp only [onesNeg] at *
    omega
  · rw [if_neg hy]
    simp only [onesNeg] at *
    omega

theorem updateChecksum_lt (c : Nat) (hc : c < 65536) (old new : List Byte) : updateChecksum c old new < 65536 := by
  by_cases h : c = 0
  · rw [h, updateChecksum_zero]
    decide
  · exact Nat.lt_succ_of_le (updateChecksum_sum hc h old new).2.1

/-! ### The corrected frame -/

section
variable {bytes : List Byte} {pos : Nat} (res : BitVec 64) (h : pos + 16 ≤ bytes.length)
include h

theorem withCorrection_length : (withCorrection bytes pos res).length = bytes.length :=
  overlay_length (by rw [beBytes_length]; omega)

theorem withCorrection_getElem? {i : Nat} (hi : i < pos + 8 ∨ pos + 16 ≤ i) : (withCorrection bytes pos res)[i]? = bytes[i]? :=
  overlay_getElem? (by rw [beBytes_length]; omega) (by rw [beBytes_length]; omega)

theorem withCorrection_field : correctionField (withCorrection bytes pos res) pos = correctionField bytes pos + res := by
  have hslice : slice (withCorrection bytes pos res) (pos + 8) 8 = beBytes 8 (correctionField bytes pos + res).toNat := by
    have := slice_overlay_same (bs := bytes) (off := pos + 8) (new := beBytes 8 (correctionField bytes pos + res).toNat)
      (by rw [beBytes_length]; omega)
    rwa [beBytes_length] at this
  rw [correctionField, bitsAt, fieldAt, hslice, beNat_beBytes_of_lt (correctionField bytes pos + res).isLt, BitVec.ofNat_toNat,
    BitVec.setWidth_eq]

end

/-- A correction under UDP4: the new correction field, and the updated checksum written over it. -/
theorem correctFrame_of_udp {bytes : List Byte} {mark : CorrMark} {res : BitVec 64} {u : Nat} (hu : mark.udpPos = some u) :
    correctFrame bytes mark res =
      overlay (withCorrection bytes mark.hdrPos res) (u + 6)
        (beBytes 2
          (updateChecksum (fieldAt bytes (u + 6) 2)
            (slice bytes (u + (mark.hdrPos + 8 - u) / 2 * 2) (((mark.hdrPos + 8 - u) % 2 + 9) / 2 * 2))
            (slice (withCorrection bytes mark.hdrPos res) (u + (mark.hdrPos + 8 - u) / 2 * 2)
              (((mark.hdrPos + 8 - u) % 2 + 9) / 2 * 2)))) := by
  rw [correctFrame, hu]

theorem correctFrame_of_none {bytes : List Byte} {mark : CorrMark} {res : BitVec 64} (hu : mark.udpPos = none) :
    correctFrame bytes mark res = withCorrection bytes mark.hdrPos res := by
  rw [correctFrame, hu]

/-- Settles O23. -/
theorem correctionChangesOnlyItsFields : Obligations.CorrectionChangesOnlyItsFields := by
  refine ⟨fun bytes mark res hlen hudp => ?_, fun c old new hc => ⟨fun h => h ▸ updateChecksum_zero old new,
    fun h => updateChecksum_sum hc h old new⟩⟩
  have hwith := fun i => withCorrection_getElem? res hlen (i := i)
  intro out
  cases hu : mark.udpPos with
  | none =>
    have hout : out = withCorrection bytes mark.hdrPos res := correctFrame_of_none hu
    rw [hout]
    exact ⟨withCorrection_length res hlen, withCorrection_field res hlen, nofun, fun i hi _ => hwith i hi⟩
  | some u =>
    have hu8 : u + 8 ≤ mark.hdrPos := hudp u hu
    have hfits : ∀ v, u + 6 + (beBytes 2 v).length ≤ (withCorrection bytes mark.hdrPos res).length := fun v => by
      rw [withCorrection_length res hlen, beBytes_length]
      omega
    have hout : out = _ := correctFrame_of_udp hu
    have hsame : ∀ i, i ≠ u + 6 → i ≠ u + 7 → out[i]? = (withCorrection bytes mark.hdrPos res)[i]? := fun i h6 h7 => by
      rw [hout]
      refine overlay_getElem? (hfits _) ?_
      rw [beBytes_length]
      omega
    refine ⟨?_, ?_, fun v hv => ?_, fun i hi hne => ?_⟩
    · rw [hout, overlay_length (hfits _), withCorrection_length res hlen]
    · rw [← withCorrection_field res hlen, correctionField, bitsAt, correctionField, bitsAt]
      congr 1
      exact fieldAt_congr fun i hlow _ => hsame i (by omega) (by omega)
    · obtain rfl : u = v := Option.some.inj hv
      intro rel words
      have hwords : words out = words (withCorrection bytes mark.hdrPos res) :=
        slice_congr fun i hlow _ => hsame i (by omega) (by omega)
      have hlt := updateChecksum_lt (fieldAt bytes (u + 6) 2) (fieldAt_lt bytes (u + 6) 2) (words bytes) (words out)
      have hslice : slice out (u + 6) 2 =
          beBytes 2 (updateChecksum (fieldAt bytes (u + 6) 2) (words bytes) (words out)) := by
        rw [hwords, hout]
        have := slice_overlay_same (hfits (updateChecksum (fieldAt bytes (u + 6) 2) (words bytes)
          (words (withCorrection bytes mark.hdrPos res))))
        rwa [beBytes_length] at this
      rw [fieldAt, hslice, beNat_beBytes_of_lt hlt]
    · obtain ⟨h6, h7⟩ := hne u rfl
      rw [hsame i h6 h7, hwith i hi]

end Sys2Proof.Machine
end

section
/-!
PROOFS. Departures: Probes and the residence corrector at the tick that reads the egress stamps (R10, R36 to R46, R80).
-/

namespace Sys2Proof.Machine

/-! ### A frame begins to be sent -/

/-- A frame whose stamp a block takes departs with the egress latency in force (R10). -/
theorem depart_stamped {p : Port} {e : EgressEntry} {s : State} (ht : e.takesStamp = true) (hr : e.ofRestart = false) :
    depart p e s =
      { s.setPort p
          { s.port p with
            tx := some { wire := if e.isMarked then none else some (sentBytes e.bytes), origin := e.origin } } with
        departing := s.departing ++ [{ port := p, entry := e, latency := (s.port p).egressLat, sending := true }] } := by
  rw [depart, ht, hr]
  rfl

/-! ### The end of a tick of any kind -/

/-- What a tick or a clock loss changes before its stamps are handed over. -/
abbrev beforeEndFields : List Field :=
  [.time, .elapsed, .elapsedRem, .prevTime, .prevTime2, .cad, .ser, .cap, .switch, .active, .clock, .steps, .exch, .servo]

theorem takeSteps_of_none {s : State} (h : s.steps = []) : takeSteps s = s := by
  have hself : { s with steps := [] } = s := by rw [← h]
  rw [takeSteps, h, hself]
  rfl

theorem tickStart_exch (inp : TickIn) (s : State) : (tickStart inp s).exch = s.exch :=
  (tickStart_evolves inp s).same .exch (by decide)

theorem tickStart_steps (inp : TickIn) (s : State) : (tickStart inp s).steps = s.steps :=
  (tickStart_evolves inp s).same .steps (by decide)

theorem lossCaughtUp_exch (n : Nat) (inp : TickIn) (s : State) : (lossCaughtUp n inp s).exch = s.exch :=
  (((reevaluateSwitch_evolves _ _).same .exch (by decide)).trans ((catchUpCads_evolves _).same .exch (by decide))).trans
    ((lossAdvance_evolves n inp s).same .exch (by decide))

/-- A tick and a clock loss end alike: with the stamps and the outputs of the tick. -/
theorem exec_tickEnd {c : Instr} {inp : TickIn} {s : State}
    (h : c = .tick inp ∨ ∃ n, c = .clockLoss n inp ∧ s.clock = .normal) :
    ∃ w, exec c s = .next (tickEnd inp w) ∧ s.evolves beforeEndFields w ∧
      ((c = .tick inp → s.steps = []) → w.exch = s.exch) := by
  rcases h with rfl | ⟨n, rfl, hclock⟩
  · refine ⟨takeSteps (tickStart inp s), rfl,
      ((tickStart_evolves inp s).mono (by decide)).trans ((takeSteps_evolves _).mono (by decide)), fun hno => ?_⟩
    rw [takeSteps_of_none ((tickStart_steps inp s).trans (hno rfl)), tickStart_exch]
  · refine ⟨_, congrArg Host.Outcome.next (clockLoss_of_normal n inp hclock), ?_, fun _ => ?_⟩
    · exact ((((lossAdvance_evolves n inp s).mono (by decide)).trans ((catchUpCads_evolves _).mono (by decide))).trans
        ((reevaluateSwitch_evolves _ _).mono (by decide))).trans
          (((servoClockLoss_evolves _).mono (by decide)).trans ((raise_evolves _ _).mono (by decide)))
    · rw [raise_exch, ← lossCaughtUp_exch n inp s]
      exact (servoClockLoss_evolves _).same .exch (by decide)

/-- The state in which a tick hands its departures over. -/
def handing (inp : TickIn) (w : State) : State := { tickStamps inp w with departing := [] }

theorem tickStamps_sameBut (inp : TickIn) (w : State) : w.sameBut [] (tickStamps inp w) :=
  (takeIngress_sameBut .n inp.rxN w).trans (takeIngress_sameBut .d inp.rxD _)

theorem handing_sameBut (inp : TickIn) (w : State) : w.sameBut [.departing] (handing inp w) :=
  ((tickStamps_sameBut inp w).mono (by decide)).trans fun f hf => by cases f <;> simp at hf <;> rfl

theorem handing_tx (inp : TickIn) (w : State) (p : Port) : ((handing inp w).port p).tx = (w.port p).tx := by
  cases p <;> rfl

theorem tickEnd_of_departing {inp : TickIn} {w : State} {d : Departure} {rest : List Departure} (h : w.departing = d :: rest) :
    tickEnd inp w = tickOutputs (rest.foldl (fun t x => handOver x t) (handOver d (handing inp w))) := by
  have hd : (tickStamps inp w).departing = d :: rest := (tickStamps_sameBut inp w .departing (by decide)).trans h
  rw [tickEnd_eq, takeEgress, handOverThose_cons _ _ _ hd]
  rfl

theorem tickEnd_departing (inp : TickIn) (w : State) : (tickEnd inp w).departing = [] := by
  have hout := (tickOutputs_evolves (takeEgress (tickStamps inp w))).same .departing (by decide)
  have hfold : (takeEgress (tickStamps inp w)).departing = (tickStamps inp w).departing.filter fun _ => !true :=
    State.sameBut.foldl (fun t d => handOver_sameBut d t) _ _ .departing (by decide)
  exact hout.trans (hfold.trans (List.filter_false _))

theorem closeTick_groups (s : State) : (closeTick s).groups = s.groups := by
  unfold closeTick
  split
  · obtain ⟨_, _, h⟩ := showOutputs_frame _ s
    rw [h]
  · rfl

theorem tickOutputs_groups (s : State) : (tickOutputs s).groups = s.groups := by
  rw [tickOutputs, settleTick_groups]
  exact closeTick_groups _

theorem tickOutputs_isPending (s : State) (f : Event) : (tickOutputs s).isPending f = s.isPending f := by
  rw [State.isPending, tickOutputs_groups]
  rfl

/-! ### The corrector's cases (R36 to R44) -/

section
variable {q : Port} {bytes : List Byte} {ing egr : Stamp} {mark : CorrMark} {s : State}

theorem consult_untouched
    (h : (readHdr bytes mark.hdrPos).len < 38 ∨
      ((readHdr bytes mark.hdrPos).kind ≠ 2 ∧ (readHdr bytes mark.hdrPos).kind ≠ 3 ∧ (readHdr bytes mark.hdrPos).kind ≠ 4)) :
    consult q bytes ing egr mark s = (bytes, s) := by
  unfold consult
  dsimp only
  rcases h with h | ⟨h2, h3, h4⟩
  · exact if_pos h
  · have hmark : ¬ ((readHdr bytes mark.hdrPos).kind = kindMark ∧ (readHdr bytes mark.hdrPos).twoStep) := fun h => h2 h.1
    have hown : ¬ ((readHdr bytes mark.hdrPos).kind = kindMark ∨ (readHdr bytes mark.hdrPos).kind = kindProbe) :=
      not_or.mpr ⟨h2, h4⟩
    rw [if_neg hmark, if_neg hown, if_neg (show ¬ (readHdr bytes mark.hdrPos).kind = kindFollow from h3), ite_self]

variable (hlen : 38 ≤ (readHdr bytes mark.hdrPos).len)
include hlen

theorem consult_twoStepMark (hk : (readHdr bytes mark.hdrPos).kind = 2) (ht : (readHdr bytes mark.hdrPos).twoStep = true) :
    consult q bytes ing egr mark s =
      (bytes, { s with residence := joinResidence (residenceRecord (readHdr bytes mark.hdrPos) q ing egr) s.residence }) := by
  unfold consult
  dsimp only
  rw [if_neg (Nat.not_lt.mpr hlen)]
  exact if_pos ⟨hk, ht⟩

theorem consult_own
    (hk : ((readHdr bytes mark.hdrPos).kind = 2 ∧ (readHdr bytes mark.hdrPos).twoStep = false) ∨
      (readHdr bytes mark.hdrPos).kind = 4) :
    consult q bytes ing egr mark s =
      (correctFrame bytes mark (residenceRecord (readHdr bytes mark.hdrPos) q ing egr).residence, s) := by
  have hmark : ¬ ((readHdr bytes mark.hdrPos).kind = kindMark ∧ (readHdr bytes mark.hdrPos).twoStep) := by
    rintro ⟨h2, ht⟩
    rcases hk with ⟨-, hk⟩ | hk
    · exact Bool.false_ne_true (hk.symm.trans ht)
    · exact absurd (hk.symm.trans h2) (by decide)
  unfold consult
  dsimp only
  rw [if_neg (Nat.not_lt.mpr hlen), if_neg hmark]
  exact if_pos (hk.imp And.left id)

variable (hk : (readHdr bytes mark.hdrPos).kind = 3)
include hk

theorem consult_follow_found {x : ResRec}
    (hx : (s.residence.find? fun x => x.sameKey (residenceRecord (readHdr bytes mark.hdrPos) q ing egr) && x.dir == q) = some x) :
    consult q bytes ing egr mark s =
      (correctFrame bytes mark x.residence,
        { s with
          residence :=
            s.residence.filter fun y =>
              !(y.sameKey (residenceRecord (readHdr bytes mark.hdrPos) q ing egr) && y.dir == q) }) := by
  simp only [consult, if_neg (Nat.not_lt.mpr hlen), hk, kindMark, kindProbe, kindFollow, hx]
  rfl

theorem consult_follow_missed
    (hx : (s.residence.find? fun x => x.sameKey (residenceRecord (readHdr bytes mark.hdrPos) q ing egr) && x.dir == q) = none) :
    consult q bytes ing egr mark s = (bytes, raise .residenceMiss s) := by
  simp only [consult, if_neg (Nat.not_lt.mpr hlen), hk, kindMark, kindProbe, kindFollow, hx]
  rfl

end

/-- A Follow takes its record and every other of its key and direction with it; without one it changes nothing. -/
theorem consult_follow_residence {q : Port} {bytes : List Byte} {ing egr : Stamp} {mark : CorrMark} {s : State}
    (hlen : 38 ≤ (readHdr bytes mark.hdrPos).len) (hk : (readHdr bytes mark.hdrPos).kind = 3) :
    (consult q bytes ing egr mark s).2.residence =
      s.residence.filter fun y =>
        !(y.sameKey (residenceRecord (readHdr bytes mark.hdrPos) q ing egr) && y.dir == q) := by
  cases hx : s.residence.find? fun x =>
      x.sameKey (residenceRecord (readHdr bytes mark.hdrPos) q ing egr) && x.dir == q with
  | some x => rw [consult_follow_found hlen hk hx]
  | none =>
    rw [consult_follow_missed hlen hk hx, raise_residence, List.filter_eq_self.mpr fun y hy => by
      rw [Bool.eq_false_iff.mpr (List.find?_eq_none.mp hx y hy)]
      rfl]

theorem consult_tx (q : Port) (bytes : List Byte) (ing egr : Stamp) (mark : CorrMark) (s : State) (p : Port) :
    ((consult q bytes ing egr mark s).2.port p).tx = (s.port p).tx := by
  have hres : ∀ r : List ResRec, (State.port { s with residence := r } p).tx = (s.port p).tx := fun r => by
    cases p <;> rfl
  have hraise : ((raise .residenceMiss s).port p).tx = (s.port p).tx := by
    obtain ⟨qn, qd, gs, k, h⟩ := raise_frame .residenceMiss s
    rw [h]
    cases p <;> rfl
  unfold consult
  dsimp only
  split
  · rfl
  · split
    · exact hres _
    · split
      · rfl
      · split
        · split
          · exact hres _
          · exact hraise
        · rfl

/-! ### A marked frame handed over -/

section
variable {d : Departure} {ing : Stamp} {mark : CorrMark} (ho : d.entry.origin = .forwarded ing (some mark)) (s : State)
include ho

theorem handOver_marked :
    handOver d s =
      let r := consult d.port d.entry.bytes ing (egressStamp s d.latency) mark s
      r.2.setPort d.port ((r.2.port d.port).answered d.sending r.1) := by
  rw [handOver]
  simp only [ho]

theorem handOver_marked_residence :
    (handOver d s).residence = (consult d.port d.entry.bytes ing (egressStamp s d.latency) mark s).2.residence := by
  rw [handOver_marked ho]
  exact State.setPort_residence _ _ _

theorem handOver_marked_isPending (f : Event) :
    (handOver d s).isPending f = (consult d.port d.entry.bytes ing (egressStamp s d.latency) mark s).2.isPending f := by
  rw [handOver_marked ho, State.isPending, State.setPort_groups]
  rfl

theorem handOver_marked_other :
    ((handOver d s).port (otherPort d.port)).tx = (s.port (otherPort d.port)).tx := by
  have hne : otherPort d.port ≠ d.port := by cases d.port <;> decide
  rw [handOver_marked ho, State.setPort_get, if_neg hne]
  exact consult_tx _ _ _ _ _ s _

theorem handOver_marked_tx :
    ((handOver d s).port d.port).tx =
      if d.sending then
        (s.port d.port).tx.map fun f =>
          { f with
            wire := some (sentBytes (consult d.port d.entry.bytes ing (egressStamp s d.latency) mark s).1) }
      else (s.port d.port).tx := by
  rw [handOver_marked ho, State.setPort_port, PortState.answered]
  cases d.sending
  · exact consult_tx _ _ _ _ _ s _
  · simp only [if_true, consult_tx]

end

/-! ### A Probe handed over -/

theorem earlierThan_iff {r b : Elapsed} : earlierThan r b = true ↔ 1 ≤ (b - r).toNat ∧ (b - r).toNat ≤ 2 ^ 63 :=
  decide_eq_true_iff

theorem probeDeparted_of_recorded {seq : BitVec 16} {st : Stamp} {s : State}
    (h : s.exch.boundary = none ∨
      ∃ b, s.exch.boundary = some b ∧
        ((b + 16777216#64 - st.elapsed).toNat = 0 ∨ 2 ^ 63 < (b + 16777216#64 - st.elapsed).toNat)) :
    probeDeparted seq st s =
      { s with
        exch := { s.exch with probes := joinProbe { seq := seq, t3 := st.time, sent := st.elapsed } s.exch.probes } } := by
  rcases h with h | ⟨b, h, hout⟩
  · simp only [probeDeparted, h]
    rfl
  · have hnot : earlierThan st.elapsed (b + probeMargin) = false := by
      rw [Bool.eq_false_iff, ne_eq, earlierThan_iff]
      change ¬ (1 ≤ (b + 16777216#64 - st.elapsed).toNat ∧ (b + 16777216#64 - st.elapsed).toNat ≤ 2 ^ 63)
      omega
    simp only [probeDeparted, h, hnot]
    rfl

theorem probeDeparted_of_excluded {seq : BitVec 16} {st : Stamp} {s : State} {b : Elapsed} (h : s.exch.boundary = some b)
    (hin : 1 ≤ (b + 16777216#64 - st.elapsed).toNat ∧ (b + 16777216#64 - st.elapsed).toNat ≤ 2 ^ 63) :
    probeDeparted seq st s = s := by
  have hearly : earlierThan st.elapsed (b + probeMargin) = true := earlierThan_iff.mpr hin
  simp only [probeDeparted, h, hearly, if_true]

theorem State.evolves.tx {s t : State} {F : List Field} (h : s.evolves F t) (p : Port) : (t.port p).tx = (s.port p).tx := by
  obtain ⟨_, _, hj, -⟩ := h.joined p
  rw [hj]

/-- Settles O21. -/
theorem probeDepartureIsRecorded : Obligations.ProbeDepartureIsRecorded := by
  refine ⟨fun s e rest seq hl htx hq ho => congrArg Host.Outcome.next ?_, fun c inp s d seq hd ho hc => ?_⟩
  · have hstamp : e.takesStamp = true := by rw [EgressEntry.takesStamp, ho]
    have hmark : e.isMarked = false := by rw [EgressEntry.isMarked, ho]
    have hrestart : e.ofRestart = false := by
      rw [EgressEntry.ofRestart, ho]
      rfl
    rw [transmitStart_of_timing (p := .n) hl htx hq, depart_stamped hstamp hrestart, hmark]
    rfl
  · obtain ⟨w, hexec, hw, hexch⟩ := exec_tickEnd (c := c) (inp := inp) (s := s) (hc.imp And.left id)
    have hsteps : c = .tick inp → s.steps = [] := fun h => by
      rcases hc with hc | ⟨n, hc, -⟩
      · exact hc.2
      · rw [hc] at h
        cases h
    have hwd : w.departing = [d] := (hw.same .departing (by decide)).trans hd
    have hend : tickEnd inp w = tickOutputs (probeDeparted seq (egressStamp (handing inp w) d.latency) (handing inp w)) := by
      rw [tickEnd_of_departing hwd, List.foldl_nil, handOver]
      simp only [ho]
    have htx : ∀ p, ((tickEnd inp w).port p).tx = (s.port p).tx := fun p => by
      rw [hend, tickOutputs_port, probeDeparted_port, handing_tx, hw.tx]
    have htime : (tickEnd inp w).time = (handing inp w).time :=
      (tickEnd_time inp w).trans (handing_sameBut inp w .time (by decide)).symm
    have helapsed : (tickEnd inp w).elapsed = (handing inp w).elapsed :=
      (tickEnd_elapsed inp w).trans (handing_sameBut inp w .elapsed (by decide)).symm
    have hboundary : (handing inp w).exch = s.exch := (handing_sameBut inp w .exch (by decide)).trans (hexch hsteps)
    have hout : (tickEnd inp w).exch = (probeDeparted seq (egressStamp (handing inp w) d.latency) (handing inp w)).exch := by
      rw [hend]
      exact (tickOutputs_evolves _).same .exch (by decide)
    refine ⟨tickEnd inp w, hexec, tickEnd_departing inp w, htx .n, htx .d, fun hrec => ?_, fun b hb hlow hhigh => ?_⟩
    · rw [htime, helapsed] at *
      rw [hout, probeDeparted_of_recorded (by rw [hboundary]; exact hrec), hboundary]
      rfl
    · have hsent : (tickEnd inp w).elapsed + BitVec.ofNat 64 d.latency = (egressStamp (handing inp w) d.latency).elapsed := by
        rw [helapsed]
        rfl
      rw [hsent] at hlow hhigh
      rw [hout, probeDeparted_of_excluded (by rw [hboundary]; exact hb) ⟨hlow, hhigh⟩, hboundary]

/-! ### Marked frames -/

theorem sameKey_iff {a b : ResRec} :
    a.sameKey b = true ↔ a.sender = b.sender ∧ a.portNo = b.portNo ∧ a.seq = b.seq ∧ a.domain = b.domain := by
  simp [ResRec.sameKey, and_assoc]

/-- Behind the record of a Mark just joined, no other of its key is found. -/
theorem not_mem_of_joined {a : ResRec} {table : List ResRec} {y : ResRec} (hy : y ∈ joinResidence a table) (hne : y ≠ a) :
    y.sameKey a = false := by
  rcases mem_of_mem_pushNewest hy with hmem | hya
  · simpa using (List.mem_filter.mp hmem).2
  · exact (hne hya).elim

/-- Settles O22. -/
theorem correctorActsByKind : Obligations.CorrectorActsByKind := by
  refine ⟨fun p s e rest ing mark hl htx ho => ?_, fun c inp s hc => ?_⟩
  · have hstamp : e.takesStamp = true := by rw [EgressEntry.takesStamp, ho]
    have hmark : e.isMarked = true := by rw [EgressEntry.isMarked, ho]
    have hrestart : e.ofRestart = false := by
      rw [EgressEntry.ofRestart, ho]
      rfl
    intro x s1
    have hleaves : ∀ y : PortState, depart p e (s.setPort p y) =
        State.setPort
          { s with departing := s.departing ++ [{ port := p, entry := e, latency := y.egressLat, sending := true }] } p
          { y with tx := some { wire := none, origin := e.origin } } := fun y => by
      rw [depart_stamped hstamp hrestart, hmark, State.setPort_setPort, State.setPort_port, State.setPort_departing]
      cases p <;> rfl
    exact ⟨fun hq => congrArg Host.Outcome.next ((transmitStart_of_timing hl htx hq).trans (hleaves _)),
      fun ht hq => congrArg Host.Outcome.next ((transmitStart_of_ordinary hl htx ht hq).trans (hleaves _))⟩
  · obtain ⟨w, hexec, hw, -⟩ := exec_tickEnd hc
    have helapsed : ∀ l, (tickEnd inp w).elapsed + BitVec.ofNat 64 l = (egressStamp (handing inp w) l).elapsed := fun l => by
      have h : (handing inp w).elapsed = w.elapsed := handing_sameBut inp w .elapsed (by decide)
      rw [tickEnd_elapsed, ← h]
      rfl
    have hres : (handing inp w).residence = s.residence :=
      (handing_sameBut inp w .residence (by decide)).trans (hw.same .residence (by decide))
    intro own
    have hown : ∀ (d : Departure) (ing : Stamp) (mark : CorrMark), own (tickEnd inp w) d ing mark =
        residenceRecord (readHdr d.entry.bytes mark.hdrPos) d.port ing (egressStamp (handing inp w) d.latency) :=
      fun d ing mark => by
        rw [residenceRecord, residenceOf, ← helapsed]
    have hkeeps : ∀ v : State, (tickOutputs v).residence = v.residence := fun v =>
      (tickOutputs_evolves v).same .residence (by decide)
    refine ⟨fun d ing mark hd ho => ?_, fun a b ia ib ma mb hd hoa hob => ?_⟩
    · have hwd : w.departing = [d] := (hw.same .departing (by decide)).trans hd
      have hend : tickEnd inp w = tickOutputs (handOver d (handing inp w)) := by
        rw [tickEnd_of_departing hwd, List.foldl_nil]
      have hother : ((tickEnd inp w).port (otherPort d.port)).tx = (s.port (otherPort d.port)).tx := by
        rw [hend, tickOutputs_port, handOver_marked_other ho, handing_tx, hw.tx]
      refine ⟨tickEnd inp w, hexec, tickEnd_departing inp w, hother, ?_⟩
      intro bytes h r sends
      have hr : r = residenceRecord h d.port ing (egressStamp (handing inp w) d.latency) := hown d ing mark
      have hsends : ∀ out x, consult d.port bytes ing (egressStamp (handing inp w) d.latency) mark (handing inp w) = (out, x) →
          sends out ∧ (tickEnd inp w).residence = x.residence := fun out x hout => by
        refine ⟨?_, ?_⟩
        · change ((tickEnd inp w).port d.port).tx = _
          rw [hend, tickOutputs_port, handOver_marked_tx ho, handing_tx, hw.tx, hout]
          rfl
        · rw [hend, hkeeps, handOver_marked_residence ho, hout]
      refine ⟨fun hno => ?_, fun hlen hk ht => ?_, fun hlen hk => ?_, fun x hlen hk hx => ?_, fun hlen hk hnone => ?_⟩
      · exact hres ▸ hsends _ _ (consult_untouched hno)
      · rw [hr, ← hres]
        exact hsends _ _ (consult_twoStepMark hlen hk ht)
      · rw [hr, ← hres]
        exact hsends _ _ (consult_own hlen hk)
      · rw [hr, ← hres] at hx ⊢
        exact hsends _ _ (consult_follow_found hlen hk hx)
      · have hfind : ((handing inp w).residence.find? fun x =>
            x.sameKey (residenceRecord h d.port ing (egressStamp (handing inp w) d.latency)) && x.dir == d.port) = none := by
          rw [← hr, hres]
          exact List.find?_eq_none.mpr fun y hy hfound => hnone y hy (by simpa using hfound)
        have hfollow := consult_follow_missed hlen hk hfind
        obtain ⟨hout, hresid⟩ := hsends _ _ hfollow
        refine ⟨hout, hresid.trans ((raise_residence _ _).trans hres), ?_⟩
        rw [hend, tickOutputs_isPending, handOver_marked_isPending ho, hfollow]
        exact raise_isPending_self _ _
    · intro ha hb hla hlb
      have hwd : w.departing = [a, b] := (hw.same .departing (by decide)).trans hd
      have hend : tickEnd inp w = tickOutputs (handOver b (handOver a (handing inp w))) := by
        rw [tickEnd_of_departing hwd, List.foldl_cons, List.foldl_nil]
      refine ⟨tickEnd inp w, hexec, tickEnd_departing inp w, ?_⟩
      intro ra rb
      have hra : ra = residenceRecord ha a.port ia (egressStamp (handing inp w) a.latency) := hown a ia ma
      have hegress : egressStamp (handOver a (handing inp w)) b.latency = egressStamp (handing inp w) b.latency := by
        have htime : (handOver a (handing inp w)).time = (handing inp w).time :=
          handOver_sameBut a (handing inp w) .time (by decide)
        have hel : (handOver a (handing inp w)).elapsed = (handing inp w).elapsed :=
          handOver_sameBut a (handing inp w) .elapsed (by decide)
        rw [egressStamp, htime, hel]
        rfl
      have hrb : rb = residenceRecord hb b.port ib (egressStamp (handOver a (handing inp w)) b.latency) := by
        rw [hegress]
        exact hown b ib mb
      have hafter : (tickEnd inp w).residence = (consult b.port b.entry.bytes ib
          (egressStamp (handOver a (handing inp w)) b.latency) mb (handOver a (handing inp w))).2.residence := by
        rw [hend, hkeeps, handOver_marked_residence hob]
      have hmarkA : ha.kind = 2 → ha.twoStep = true → (handOver a (handing inp w)).residence = joinResidence ra s.residence :=
        fun hk ht => by rw [handOver_marked_residence hoa, consult_twoStepMark hla hk ht, hra, ← hres]
      have hmarkB : hb.kind = 2 → hb.twoStep = true →
          (tickEnd inp w).residence = joinResidence rb (handOver a (handing inp w)).residence :=
        fun hk ht => by rw [hafter, consult_twoStepMark hlb hk ht, hrb]
      refine ⟨fun hka hta hkb htb => by rw [hmarkB hkb htb, hmarkA hka hta], fun hkey hports => ⟨fun hka hta hkb => ?_,
        fun hka hkb htb => ?_⟩⟩
      · have hfind : ((handOver a (handing inp w)).residence.find? fun x => x.sameKey rb && x.dir == b.port) = none := by
          rw [hmarkA hka hta]
          refine List.find?_eq_none.mpr fun y hy hfound => ?_
          obtain ⟨hsame, hdir⟩ := (Bool.and_eq_true _ _).mp hfound
          by_cases hya : y = ra
          · rw [hya, hra] at hdir
            exact hports (beq_iff_eq.mp hdir)
          · have hno := not_mem_of_joined hy hya
            obtain ⟨h1, h2, h3, h4⟩ := sameKey_iff.mp hsame
            obtain ⟨k1, k2, k3, k4⟩ := sameKey_iff.mp hkey
            have hyes : y.sameKey ra = true :=
              sameKey_iff.mpr ⟨h1.trans k1.symm, h2.trans k2.symm, h3.trans k3.symm, h4.trans k4.symm⟩
            exact Bool.false_ne_true (hno.symm.trans hyes)
        rw [hrb] at hfind
        have hfollow := consult_follow_missed hlb hkb hfind
        refine ⟨?_, ?_⟩
        · rw [hafter, hfollow, ← hmarkA hka hta]
          exact raise_residence _ _
        · rw [hend, tickOutputs_isPending, handOver_marked_isPending hob, hfollow]
          exact raise_isPending_self _ _
      · rw [hmarkB hkb htb, handOver_marked_residence hoa, consult_follow_residence hla hka, ← hra, hres]

end Sys2Proof.Machine
end

section
/-!
PROOFS. The servo and the clock monitor by their rows (R97 to R99, R102 to R111, R115).
-/

namespace Sys2Proof.Machine

/-! ### The increment and the commands of FREE (R94, R97 to R99) -/

theorem trimFraction_spec {a : Int} (ha : a.natAbs ≤ 100000) :
    trimFraction a < 2 ^ 32 ∧ 2 * 10 ^ 9 * trimFraction a ≤ 2 * (a.natAbs * 34359738368) + 10 ^ 9 ∧
      2 * (a.natAbs * 34359738368) + 10 ^ 9 < 2 * 10 ^ 9 * (trimFraction a + 1) := by
  unfold trimFraction
  omega

theorem limitNs_reading : ((limitNs * 256 : Nat) : Int) = 2 ^ 48 * 10 ^ 9 * 256 := by norm_num [limitNs]

theorem stepBy_result_of_outside {t : TimeVal} {z : Int} {limit : Int} (hl : ((limitNs * 256 : Nat) : Int) = limit)
    (h : ¬ (0 ≤ t.reading + z ∧ t.reading + z < limit)) : (StepReq.by z).result t = none := by
  rw [← hl] at h
  exact if_neg h

theorem stepBy_result_of_inside {t : TimeVal} {z : Int} {limit : Int} (hl : ((limitNs * 256 : Nat) : Int) = limit)
    (h : 0 ≤ t.reading + z ∧ t.reading + z < limit) :
    (StepReq.by z).result t =
      some (TimeVal.ofTotal ((t.reading + z).toNat * 2 ^ 24 + t.frac.toNat % 2 ^ 24)) := by
  rw [← hl] at h
  exact if_pos h

/-- A step by an amount is refused just outside the range of R95. -/
theorem stepBy_result_isNone {t : TimeVal} {z : Int} {limit : Int} (hl : ((limitNs * 256 : Nat) : Int) = limit) :
    ((StepReq.by z).result t).isNone = true ↔ t.reading + z < 0 ∨ limit ≤ t.reading + z := by
  by_cases h : 0 ≤ t.reading + z ∧ t.reading + z < limit
  · rw [stepBy_result_of_inside hl h, Option.isNone_some]
    exact ⟨fun hno => absurd hno Bool.false_ne_true, fun hno => by omega⟩
  · rw [stepBy_result_of_outside hl h]
    exact ⟨fun _ => by omega, fun _ => rfl⟩

theorem stepPreview_of_none {s : State} (h : s.steps = []) : stepPreview s = s.time.advance (incrementOf s.servo.a) := by
  rw [stepPreview, h, List.foldl_nil, State.increment]

theorem clamp_of_within {m : Nat} {z : Int} (hlow : -(m : Int) ≤ z) (hhigh : z ≤ m) : clamp m z = z := by
  unfold clamp
  omega

theorem clamp_of_above {m : Nat} {z : Int} (h : (m : Int) < z) : clamp m z = m := by
  unfold clamp
  omega

theorem clamp_of_below {m : Nat} {z : Int} (h : z < -(m : Int)) : clamp m z = -m := by
  unfold clamp
  omega

/-- Settles O36. -/
theorem timeAndTrimCommandsActInFree : Obligations.TimeAndTrimCommandsActInFree := by
  refine ⟨fun a ha => ?_, fun s r rest => ⟨fun hc => ?_, fun hc => ?_⟩, fun s r rest hc => ?_⟩
  · obtain ⟨hlt, hlow, hhigh⟩ := trimFraction_spec ha
    refine ⟨trimFraction a, hlt, hlow, hhigh, fun h => if_pos h, fun h => ?_⟩
    rw [incrementOf, if_neg (by omega)]
    omega
  · have hserve : ∀ {a : Reply}, stepTimeCore r.body { s with requests := rest } = a → exec .stepTime s = .next (respond r a) :=
      fun ha => congrArg Host.Outcome.next ((serve_carriesOut _ _ _ _ _ hc).trans (congrArg (respond r) ha))
    intro z v
    have hpreview : s.steps = [] → stepPreview { s with requests := rest } = s.time.advance (incrementOf s.servo.a) :=
      fun h => stepPreview_of_none (s := { s with requests := rest }) h
    refine ⟨fun hst => hserve (if_pos hst), fun hst hz => hserve ?_, fun hst hz hno hlow hhigh => hserve ?_,
      fun hst hz hno hout => hserve ?_⟩
    · exact (if_neg (not_not.mpr hst)).trans (if_pos hz)
    · refine (if_neg (not_not.mpr hst)).trans ((if_neg hz).trans ((if_neg ?_).trans ?_))
      · rw [stepBy_result_isNone limitNs_reading, hpreview hno]
        exact fun hout => hout.elim (fun h => absurd h (not_lt.mpr hlow)) fun h => absurd h (not_le.mpr hhigh)
      · rw [askStep, show State.steps { s with requests := rest } = [] from hno]
        rfl
    · refine (if_neg (not_not.mpr hst)).trans ((if_neg hz).trans (if_pos ?_))
      rw [stepBy_result_isNone limitNs_reading, hpreview hno]
      exact hout
  · have hserve : ∀ {a : Reply}, setTimeCore r.body { s with requests := rest } = a → exec .setTime s = .next (respond r a) :=
      fun ha => congrArg Host.Outcome.next ((serve_carriesOut _ _ _ _ _ hc).trans (congrArg (respond r) ha))
    refine ⟨fun hst => hserve (if_pos hst), fun hst hns => hserve ?_, fun hst hns => hserve ?_⟩
    · exact (if_neg (not_not.mpr hst)).trans (if_pos hns)
    · exact (if_neg (not_not.mpr hst)).trans (if_neg (not_le.mpr hns))
  · have hserve : ∀ {a : Reply}, setTrimCore r.body { s with requests := rest } = a → exec .setTrim s = .next (respond r a) :=
      fun ha => congrArg Host.Outcome.next ((serve_carriesOut _ _ _ _ _ hc).trans (congrArg (respond r) ha))
    intro s1 z m applied
    have hfree : s.servo.st = .free → setTrimCore r.body s1 =
        { st := if clamp s.servoCfg.maxAdjust z = z then .ok else .clamped,
          body := beBytes 4 (unsignedOf 32 (clamp s.servoCfg.maxAdjust z)),
          after := { s1 with servo := { s.servo with a := clamp s.servoCfg.maxAdjust z } } } := fun hst =>
      if_neg (not_not.mpr hst)
    refine ⟨fun hst => hserve (if_pos hst), fun hst hlow hhigh => hserve ?_, fun hst hz => hserve ?_, fun hst hz => hserve ?_⟩
    · rw [hfree hst, clamp_of_within hlow hhigh, if_pos rfl]
    · rw [hfree hst, clamp_of_above hz, if_neg (by omega)]
    · rw [hfree hst, clamp_of_below hz, if_neg (by omega)]

/-! ### Selections and the end of HOLDOVER (R109 to R111) -/

theorem enterAcquire_eq (fresh : Bool) (s : State) :
    enterAcquire fresh s = raiseIf s.servo.locked .lockLost { s with servo := s.servo.acquired fresh } := rfl

/-- Entry to ACQUIRE, with LOCK_LOST when LOCKED was set (R103). -/
theorem enterAcquire_cases (fresh : Bool) (s : State) :
    (s.servo.locked = false → enterAcquire fresh s = { s with servo := s.servo.acquired fresh }) ∧
      (s.servo.locked = true → enterAcquire fresh s = raise .lockLost { s with servo := s.servo.acquired fresh }) := by
  refine ⟨fun h => ?_, fun h => ?_⟩
  · rw [enterAcquire_eq, h]
    rfl
  · rw [enterAcquire_eq, h]
    rfl

theorem servoSelection_of {st : ServoState} {s : State} (h : s.servo.st = st) (now : Option SourceName) :
    servoSelection now s =
      match (generalizing := false) st, now with
      | .free, some _ => if s.clock = .normal then enterAcquire true s else s
      | .free, none => s
      | .acquire, some _ => s
      | .acquire, none => enterFree s
      | .track, some _ => enterAcquire false s
      | .track, none => if s.servo.lockHeld then enterHoldover s else enterFree s
      | .holdover, some _ => enterAcquire true s
      | .holdover, none => s := by
  subst h
  rfl

theorem enterHoldover_isPending (s : State) :
    (enterHoldover s).isPending .holdoverEntered = true ∧
      (s.servo.locked = true → (enterHoldover s).isPending .lockLost = true) := by
  refine ⟨raise_isPending_self _ _, fun h => raise_keeps_isPending _ ?_⟩
  rw [clearLocked, h]
  exact raise_isPending_self _ _

theorem enterHoldover_evolves' (s : State) : s.evolves [.servo] (enterHoldover s) :=
  ((setServo_evolves s _).trans (clearLocked_evolves _)).trans ((raise_evolves _ _).mono (by decide))

theorem holdoverOver_iff {s : State} :
    holdoverOver s = true ↔
      s.servo.st = .holdover ∧ ∃ start, s.servo.holdStart = some start ∧ s.servoCfg.holdoverLimit ≠ 0 ∧
        s.servoCfg.holdoverLimit * 256000000000 < (s.elapsed - start).toNat := by
  unfold holdoverOver
  split
  · rename_i start hst hstart
    rw [decide_eq_true_iff]
    refine ⟨fun h => ⟨hst, start, hstart, h⟩, fun ⟨_, x, hx, h⟩ => ?_⟩
    obtain rfl := Option.some.inj (hx.symm.trans hstart)
    exact h
  · rename_i hno
    exact ⟨nofun, fun ⟨hst, start, hstart, _⟩ => (hno start hst hstart).elim⟩

/-- Settles O38. -/
theorem selectionAndHoldoverMoveServo : Obligations.SelectionAndHoldoverMoveServo := by
  refine ⟨fun s r => ?_, fun s => ⟨fun hst hheld _ => ?_, fun hno => ?_, fun start hst hstart hlimit hpast => ?_⟩⟩
  · refine ⟨fun hst hclock => ?_, fun hst hclock => ?_, fun hst => ?_, fun hst => ?_, fun hst => ?_, fun hst => ?_,
      fun hst hheld => ?_, fun hst => ?_⟩
    · rw [servoSelection_of hst]
      simp only [if_pos hclock]
      exact enterAcquire_cases true s
    · rw [servoSelection_of hst]
      exact if_neg hclock
    · exact servoSelection_of hst none
    · exact servoSelection_of hst _
    · exact servoSelection_of hst none
    · rw [servoSelection_of hst]
      exact enterAcquire_cases false s
    · rw [servoSelection_of hst]
      exact if_neg (by rw [hheld]; decide)
    · rw [servoSelection_of hst]
      exact enterAcquire_cases true s
  · have hmove : servoSelection none s = enterHoldover s := (servoSelection_of hst none).trans (if_pos hheld)
    have hevolves := (enterHoldover_evolves' s).same
    intro m h t
    rw [show t = enterHoldover s from hmove]
    obtain ⟨hentered, hlost⟩ := enterHoldover_isPending s
    exact ⟨enterHoldover_servo s, hentered, hlost, hevolves .exch (by decide), hevolves .sources (by decide),
      hevolves .steps (by decide)⟩
  · have hover : ¬ holdoverOver s = true := by
      rw [holdoverOver_iff]
      rintro ⟨hst, start, hstart, hlimit, hpast⟩
      rcases hno with h | h | ⟨x, hx, hle⟩
      · exact h hst
      · exact hlimit h
      · obtain rfl := Option.some.inj (hx.symm.trans hstart)
        exact absurd hpast (not_lt.mpr hle)
    exact congrArg Host.Outcome.next (if_neg hover)
  · exact congrArg Host.Outcome.next (if_pos (holdoverOver_iff.mpr ⟨hst, start, hstart, hlimit, hpast⟩))

/-! ### The clock monitor (R115) -/

theorem clockRestored_of_qualified {s : State} {n : Nat} (h : s.clock = .backup (some n)) (hn : 1250000 ≤ n) :
    clockRestored s =
      if s.selectedName.isSome then enterAcquire true (raise .clockRestored { s with clock := .normal })
      else raise .clockRestored { s with clock := .normal } := by
  simp only [clockRestored, h, if_pos (show restoreTicks ≤ n from hn)]

/-- Settles O40. -/
theorem clockQualificationAndRestore : Obligations.ClockQualificationAndRestore := by
  intro s
  refine ⟨fun h => ?_, fun h => ?_, fun inp => ?_, fun n h => ?_⟩
  · exact ⟨congrArg Host.Outcome.next (by rw [qualificationStart, h]), congrArg Host.Outcome.next (by rw [qualificationRestart, h]),
      congrArg Host.Outcome.next (by rw [clockRestored, h])⟩
  · exact ⟨congrArg Host.Outcome.next (by rw [qualificationStart, h]), congrArg Host.Outcome.next (by rw [qualificationRestart, h]),
      congrArg Host.Outcome.next (by rw [clockRestored, h])⟩
  · have hclock := tickAll_clock inp s
    refine ⟨tickAll inp s, rfl, fun h => hclock.trans (by rw [h]; rfl), fun h => hclock.trans (by rw [h]; rfl), fun n h => ?_⟩
    rw [hclock, h]
    have hmin : min restoreTicks (n + 1) = if n < 1250000 then n + 1 else 1250000 := by
      unfold restoreTicks
      split <;> omega
    exact congrArg (fun k => ClockState.backup (some k)) hmin
  · refine ⟨congrArg Host.Outcome.next (by rw [qualificationStart, h]), congrArg Host.Outcome.next (by rw [qualificationRestart, h]),
      fun hn => congrArg Host.Outcome.next ?_, fun hn hsel => congrArg Host.Outcome.next ?_, fun hn hsel => ?_⟩
    · simp only [clockRestored, h, if_neg (show ¬ restoreTicks ≤ n from not_le.mpr hn)]
    · rw [clockRestored_of_qualified h hn, hsel, Option.isSome_none, if_neg Bool.false_ne_true]
    · let restored : State := raise .clockRestored { s with clock := .normal }
      have hsome : s.selectedName.isSome = true := Option.isSome_iff_ne_none.mpr hsel
      have hraised : State.evolves { s with clock := .normal } [.clock] restored := (raise_evolves _ _).mono (by decide)
      have hevolves : s.evolves [.clock, .servo] (enterAcquire true restored) :=
        (((setClock_evolves s .normal).mono (by decide)).trans (hraised.mono (by decide))).trans
          ((enterAcquire_evolves true restored).mono (by decide))
      have hservo : restored.servo = s.servo := raise_servo _ _
      refine ⟨enterAcquire true restored, ?_, ?_, ?_, fun hlocked => ?_, fun hlocked => ?_, hevolves.same .time (by decide),
        hevolves.same .elapsed (by decide), hevolves.same .exch (by decide), hevolves.same .sources (by decide), ?_⟩
      · exact congrArg Host.Outcome.next ((clockRestored_of_qualified h hn).trans (if_pos hsome))
      · exact ((enterAcquire_evolves true restored).same .clock (by decide)).trans (raise_clock _ _)
      · exact raiseIf_keeps_isPending _ _ (s := { restored with servo := restored.servo.acquired true })
          (raise_isPending_self .clockRestored { s with clock := .normal })
      · rw [(enterAcquire_cases true restored).2 (by rw [hservo, hlocked])]
        exact raise_isPending_self _ _
      · rw [(enterAcquire_cases true restored).1 (by rw [hservo, hlocked])]
        refine (raise_flags .clockRestored { s with clock := .normal }).2 .lockLost ?_
        rintro (h | ⟨p, h⟩)
        · cases h
        · cases h
      · rw [enterAcquire_servo, hservo]
        rfl

end Sys2Proof.Machine
end

section
/-!
PROOFS. Offset samples at the servo (R104 to R108, R129).
-/

namespace Sys2Proof.Machine

/-! ### What a sample leaves alone -/

/-- The start of the WAITING cadences changes the cadences alone. -/
theorem startWaiting_frame (s : State) : ∃ v, startWaiting s = { s with cad := v } := by
  have hfold : ∀ (l : List (Fin 8)) (t : State), ∃ v,
      l.foldl (fun t n =>
        match t.cad[n].st with
        | .waiting => t.setCad n { t.cad[n] with st := startState (t.cadRec n) true (laterThanNow t) }
        | _ => t) t = { t with cad := v } := by
    intro l
    induction l with
    | nil => exact fun t => ⟨t.cad, rfl⟩
    | cons n l ih =>
      intro t
      rw [List.foldl_cons]
      split
      · exact ih (t.setCad n _)
      · exact ih t
  exact hfold allCad s

theorem startWaiting_groups (s : State) : (startWaiting s).groups = s.groups := by
  obtain ⟨v, h⟩ := startWaiting_frame s
  rw [h]

theorem setTraced_isPending (s : State) (f : Event) : (setTraced s).isPending f = s.isPending f := by
  have hgroups : (setTraced s).groups = s.groups := by
    unfold setTraced
    split
    · rfl
    · rw [settleTick_groups, startWaiting_groups]
  rw [State.isPending, hgroups]
  rfl

theorem lockDetect_keeps_isPending (theta : Int) {s : State} {f : Event} (h : s.isPending f = true) :
    (lockDetect theta s).isPending f = true := by
  unfold lockDetect
  split
  · split
    · exact raise_keeps_isPending _ h
    · exact h
  · split
    · split
      · rw [setTraced_isPending]
        exact raise_keeps_isPending _ h
      · exact h
    · exact h

theorem acquireSample_keeps_isPending (o : Offset) {s : State} {f : Event} (h : s.isPending f = true) :
    (acquireSample o s).isPending f = true := by
  unfold acquireSample
  split
  · exact h
  · exact lockDetect_keeps_isPending _ h

theorem setTraced_steps (s : State) : (setTraced s).steps = s.steps := by
  unfold setTraced
  split
  · rfl
  · rw [settleTick_steps]
    exact (startWaiting_evolves _).same .steps (by decide)

theorem applySample_steps (theta : Int) (s : State) : (applySample theta s).steps = s.steps := by
  unfold applySample lockDetect
  split
  · split
    · exact raise_steps _ _
    · rfl
  · split
    · split
      · rw [setTraced_steps, raise_steps]
      · rfl
    · rfl

/-! ### Which way a sample goes -/

theorem servoSample_of_ignored (o : Offset) {s : State} (h : s.servo.st = .free ∨ s.servo.st = .holdover) :
    servoSample o s = s := by
  rcases h with h | h <;> simp only [servoSample, h]

theorem servoSample_of_acquire (o : Offset) {s : State} (h : s.servo.st = .acquire) : servoSample o s = acquireSample o s := by
  simp only [servoSample, h]

theorem servoSample_of_track (o : Offset) {s : State} (h : s.servo.st = .track) : servoSample o s = trackSample o s := by
  simp only [servoSample, h]

theorem trackSample_of_applied {o : Offset} {s : State} (h : s.servo.locked = false ∨ o.ns.natAbs ≤ s.servoCfg.outlierGate) :
    trackSample o s = applySample o.ns s := by
  refine if_neg fun ⟨hl, hgate⟩ => ?_
  rcases h with h | h
  · exact Bool.false_ne_true (h.symm.trans hl)
  · exact absurd hgate (not_lt.mpr h)

theorem trackSample_of_outlier {o : Offset} {s : State} (hl : s.servo.locked = true) (hg : s.servoCfg.outlierGate < o.ns.natAbs) :
    trackSample o s =
      if s.servo.outlierCount + 1 = 4 then acquireSample o (enterAcquire false s)
      else { s with servo := { s.servo with outlierCount := s.servo.outlierCount + 1 } } := if_pos ⟨hl, hg⟩

/-! ### Lock detection, case by case (R107) -/

section
variable {cfg : ServoCfg} {theta : Int} {v : Servo}

theorem detect_of_locked_lost (hl : v.locked = true) (h : 4 * cfg.lockWindow < theta.natAbs) :
    v.detect cfg theta = { v with locked := false, lockCount := 0 } := by
  rw [Servo.detect, if_pos hl, if_pos h]

theorem detect_of_locked_kept (hl : v.locked = true) (h : theta.natAbs ≤ 4 * cfg.lockWindow) : v.detect cfg theta = v := by
  rw [Servo.detect, if_pos hl, if_neg (not_lt.mpr h)]

variable (hl : v.locked = false)
include hl

theorem detect_of_outside (h : cfg.lockWindow < theta.natAbs) : v.detect cfg theta = { v with lockCount := 0 } := by
  rw [Servo.detect, if_neg (by rw [hl]; decide), if_neg (not_le.mpr h)]

theorem detect_of_gained (h : theta.natAbs ≤ cfg.lockWindow) (hc : v.lockCount = 7) :
    v.detect cfg theta = { v with locked := true, lockHeld := true, lockCount := 0, traced := true } := by
  rw [Servo.detect, if_neg (by rw [hl]; decide), if_pos h, if_pos (by omega)]

theorem detect_of_counted (h : theta.natAbs ≤ cfg.lockWindow) (hc : v.lockCount < 7) :
    v.detect cfg theta = { v with lockCount := v.lockCount + 1 } := by
  rw [Servo.detect, if_neg (by rw [hl]; decide), if_pos h, if_neg (by omega)]

end

/-- The servo with a sample applied, before lock detection (R105). -/
def Servo.looped (cfg : ServoCfg) (theta : Int) (v : Servo) : Servo :=
  { v with
    a := adjustAfter cfg v.integ theta
    integ := integralAfter cfg v.integ theta
    history := pushNewest 16 (adjustAfter cfg v.integ theta) v.history
    outlierCount := 0 }

theorem applySample_eq (theta : Int) (s : State) :
    applySample theta s = lockDetect theta { s with servo := s.servo.looped s.servoCfg theta } := rfl

theorem applySample_servo_eq (theta : Int) (s : State) :
    (applySample theta s).servo = (s.servo.looped s.servoCfg theta).detect s.servoCfg theta := by
  rw [applySample_eq, lockDetect_servo]

/-- Lock detection keeps what the loop sets. -/
theorem detect_keeps (cfg : ServoCfg) (theta : Int) (v : Servo) :
    (v.detect cfg theta).st = v.st ∧ (v.detect cfg theta).a = v.a ∧ (v.detect cfg theta).integ = v.integ ∧
      (v.detect cfg theta).history = v.history ∧ (v.detect cfg theta).outlierCount = v.outlierCount := by
  have hout : ∀ v', (v' = v ∨ v' = { v with locked := false, lockCount := 0 } ∨
      v' = { v with locked := true, lockHeld := true, lockCount := 0, traced := true } ∨
      (∃ k, v' = { v with lockCount := k })) →
      v'.st = v.st ∧ v'.a = v.a ∧ v'.integ = v.integ ∧ v'.history = v.history ∧ v'.outlierCount = v.outlierCount := by
    rintro v' (rfl | rfl | rfl | ⟨k, rfl⟩)
    · exact ⟨rfl, rfl, rfl, rfl, rfl⟩
    · exact ⟨rfl, rfl, rfl, rfl, rfl⟩
    · exact ⟨rfl, rfl, rfl, rfl, rfl⟩
    · exact ⟨rfl, rfl, rfl, rfl, rfl⟩
  refine hout _ ?_
  unfold Servo.detect
  split
  · split
    · exact .inr (.inl rfl)
    · exact .inl rfl
  · split
    · split
      · exact .inr (.inr (.inl rfl))
      · exact .inr (.inr (.inr ⟨_, rfl⟩))
    · exact .inr (.inr (.inr ⟨_, rfl⟩))

/-- The first lock raises LOCK_GAINED and sets the traced flag (R107, R108). -/
theorem lockDetect_of_gained {theta : Int} {s : State} (hl : s.servo.locked = false)
    (h : theta.natAbs ≤ s.servoCfg.lockWindow) (hc : s.servo.lockCount = 7) :
    lockDetect theta s =
      setTraced (raise .lockGained { s with servo := { s.servo with locked := true, lockHeld := true, lockCount := 0 } }) := by
  rw [lockDetect, if_neg (by rw [hl]; decide), if_pos h, if_pos (by omega)]

theorem lockDetect_of_lost {theta : Int} {s : State} (hl : s.servo.locked = true)
    (h : 4 * s.servoCfg.lockWindow < theta.natAbs) :
    lockDetect theta s = raise .lockLost { s with servo := { s.servo with locked := false, lockCount := 0 } } := by
  rw [lockDetect, if_pos hl, if_pos h]

/-- The cadences when the traced flag is set: those that wait start at their first edge later than the counter (R129). -/
theorem setTraced_cad {s : State} (h : s.servo.traced = false) (n : Fin 8) :
    (s.cad[n].st ≠ .waiting → (setTraced s).cad[n] = s.cad[n]) ∧
      (s.cad[n].st = .waiting → (s.cadRec n).mode = .continuous →
        (setTraced s).cad[n] =
          { s.cad[n] with
            st :=
              .running ((s.cadRec n).firstAt (s.time.totalNs + 1))
                ((s.cadRec n).edgeTime ((s.cadRec n).firstAt (s.time.totalNs + 1))) }) := by
  have hcad : (setTraced s).cad[n] = s.cad[n].begun { s with servo := { s.servo with traced := true } } n := by
    have hset : setTraced s = settleTick (startWaiting { s with servo := { s.servo with traced := true } }) :=
      if_neg (by rw [h]; decide)
    simp only [hset, settleTick_cad, startWaiting_cad]
  rw [hcad]
  refine ⟨fun hno => ?_, fun hst hmode => ?_⟩
  · unfold CadRun.begun
    split
    · rename_i hst
      exact (hno hst).elim
    · rfl
  · have hstart : startState (s.cadRec n) true (s.time.totalNs + 1) =
        .running ((s.cadRec n).firstAt (s.time.totalNs + 1))
          ((s.cadRec n).edgeTime ((s.cadRec n).firstAt (s.time.totalNs + 1))) := by
      simp [startState, hmode]
    simp only [CadRun.begun, hst]
    exact congrArg (fun st => { s.cad[n] with st := st }) hstart

theorem setTraced_of_traced {s : State} (h : s.servo.traced = true) : setTraced s = s := if_pos h

/-- Settles O37. -/
theorem samplesDriveServo : Obligations.SamplesDriveServo := by
  refine ⟨fun o s => ⟨fun hst hfar => ?_, fun hst hnear => ?_, servoSample_of_ignored o⟩, fun o s hst => ?_⟩
  · rw [servoSample_of_acquire o hst]
    exact if_pos hfar
  · rw [servoSample_of_acquire o hst]
    exact if_neg (not_lt.mpr hnear)
  · intro c m i a t
    have ht : t = trackSample o s := servoSample_of_track o hst
    refine ⟨fun hin => ?_, fun hl hg hc => ?_, fun hl hg hc => ?_⟩
    · let u : State := { s with servo := s.servo.looped c o.ns }
      have happly : t = lockDetect o.ns u := ht.trans (trackSample_of_applied hin)
      have hservo : t.servo = (s.servo.looped c o.ns).detect c o.ns := by rw [happly, lockDetect_servo]
      obtain ⟨hkst, hka, hki, hkh, hko⟩ := detect_keeps c o.ns (s.servo.looped c o.ns)
      have hsteps : t.steps = s.steps := by rw [ht, trackSample_of_applied hin, applySample_steps]
      refine ⟨?_, ?_, ?_, ?_, hsteps, ?_, fun hl hw hc => ?_, fun hl hw hc => ?_, fun hl hw => ?_, fun hl hw => ?_,
        fun hl hw => ?_⟩
      · rw [hservo, hkst]
        exact hst
      · rw [hservo, hka]
        rfl
      · rw [hservo, hki]
        rfl
      · rw [hservo, hko]
        rfl
      · rw [hservo, hkh]
        rfl
      · have hgained : t = setTraced (raise .lockGained
            { u with servo := { u.servo with locked := true, lockHeld := true, lockCount := 0 } }) :=
          happly.trans (lockDetect_of_gained (s := u) hl hw hc)
        have hdetect := hservo.trans (detect_of_gained (v := s.servo.looped c o.ns) hl hw hc)
        refine ⟨by rw [hdetect], by rw [hdetect], by rw [hdetect], by rw [hdetect], ?_, fun htr => ?_, fun htr n => ?_⟩
        · rw [hgained, setTraced_isPending]
          exact raise_isPending_self _ _
        · rw [hgained, setTraced_of_traced (by rw [raise_servo]; exact htr)]
          exact raise_cad _ _
        · let w : State := raise .lockGained
            { u with servo := { u.servo with locked := true, lockHeld := true, lockCount := 0 } }
          have hw : State.evolves { u with servo := { u.servo with locked := true, lockHeld := true, lockCount := 0 } } [] w :=
            raise_evolves _ _
          have hcad : w.cad = s.cad := hw.same .cad (by decide)
          have hrec : w.cadRec n = s.cadRec n :=
            cadRec_congr (hw.same .banks (by decide)) (hw.same .active (by decide)) n
          have htime : w.time = s.time := hw.same .time (by decide)
          have hset := setTraced_cad (s := w) (by rw [show w.servo = _ from raise_servo _ _]; exact htr) n
          rw [hrec, htime] at hset
          simp only [hcad] at hset
          rw [hgained]
          exact hset
      · rw [hservo, detect_of_counted (v := s.servo.looped c o.ns) hl hw hc]
        exact ⟨hl, rfl⟩
      · rw [hservo, detect_of_outside (v := s.servo.looped c o.ns) hl hw]
        exact ⟨hl, rfl⟩
      · rw [hservo, detect_of_locked_kept (v := s.servo.looped c o.ns) hl hw]
        exact hl
      · rw [hservo, detect_of_locked_lost (v := s.servo.looped c o.ns) hl hw]
        refine ⟨rfl, rfl, rfl, ?_⟩
        rw [happly, lockDetect_of_lost (s := u) hl hw]
        exact raise_isPending_self _ _
    · rw [ht, trackSample_of_outlier hl hg, if_neg (by omega)]
    · let u := enterAcquire false s
      have hu : t = acquireSample o u := by rw [ht, trackSample_of_outlier hl hg, if_pos (by omega)]
      have huservo : u.servo = s.servo.acquired false := enterAcquire_servo false s
      have hucfg : u.servoCfg = s.servoCfg := (enterAcquire_evolves false s).same .servoCfg (by decide)
      have husteps : u.steps = s.steps := (enterAcquire_evolves false s).same .steps (by decide)
      have hlost : u.isPending .lockLost = true := by
        rw [show u = _ from (enterAcquire_cases false s).2 hl]
        exact raise_isPending_self _ _
      have htservo : t.servo =
          if c.stepThreshold < o.ns.natAbs then s.servo.acquired false else (s.servo.acquired false).sampled c o.ns := by
        rw [hu, acquireSample_servo, huservo, hucfg]
      refine ⟨hu ▸ acquireSample_keeps_isPending o hlost, ?_, fun hfar => ?_, fun hnear => ?_⟩
      · rw [htservo]
        split
        · rfl
        · exact (detect_keeps c o.ns _).2.2.2.2
      · rw [htservo, if_pos hfar]
        refine ⟨rfl, rfl, rfl, rfl, rfl, ?_⟩
        have hstep : t = { u with steps := u.steps ++ [.by (-o.exact)] } := hu.trans (if_pos (by rw [hucfg]; exact hfar))
        rw [hstep, husteps]
      · rw [htservo, if_neg (not_lt.mpr hnear)]
        obtain ⟨hkst, hka, hki, hkh, -⟩ := detect_keeps c o.ns
          { (s.servo.acquired false).looped c o.ns with st := .track }
        refine ⟨hkst, hka, hki, hkh, ?_⟩
        have hstep : t = applySample o.ns { u with servo := { u.servo with st := .track } } :=
          hu.trans (if_neg (by rw [hucfg]; exact not_lt.mpr hnear))
        rw [hstep, applySample_steps]
        exact husteps

end Sys2Proof.Machine
end

section
/-!
PROOFS. What a tick shows: the events it reaches, its outputs, and a tick with no step asked for (R92, R93, R159, R168).
-/

namespace Sys2Proof.Machine

/-! ### The events that the latest tick reaches -/

theorem atOrPast_iff {s : State} {e : Nat} : s.atOrPast e = true ↔ e * 2 ^ 32 ≤ s.time.total := decide_eq_true_iff

theorem not_atOrPast_iff {s : State} {e : Nat} : s.atOrPast e = false ↔ s.time.total < e * 2 ^ 32 := by
  rw [Bool.eq_false_iff, ne_eq, atOrPast_iff, Nat.not_le]

theorem any_atOrPast_iff {s : State} {p : Option Nat} :
    p.any s.atOrPast = true ↔ ∃ e, p = some e ∧ e * 2 ^ 32 ≤ s.time.total := by
  rw [Option.any_eq_true]
  exact exists_congr fun e => and_congr_right fun _ => atOrPast_iff

/-- R128 in the words of the obligations. -/
theorem mayFire_iff {s : State} {n : Fin 8} : s.mayFire n ↔ heldBack s s.cad[n] = false := by
  unfold State.mayFire heldBack
  rw [Bool.or_eq_false_iff]
  refine and_congr_right fun _ => ?_
  rw [Bool.eq_false_iff, ne_eq, any_atOrPast_iff, not_exists]
  exact ⟨fun h e ⟨he, hp⟩ => absurd (h e he) (Nat.not_lt.mpr hp), fun h e he => Nat.not_le.mp fun hp => h e ⟨he, hp⟩⟩

theorem wouldMiss_iff {s : State} {n : Fin 8} :
    s.wouldMiss n = true ↔ (s.cadRec n).policy = .whenTraced ∧ s.servo.traced = false := by
  simp [State.wouldMiss]

theorem cadReached_iff {s : State} {n : Fin 8} :
    s.cadReached n = true ↔
      (∃ e, s.cad[n].pulse = some e ∧ e * 2 ^ 32 ≤ s.time.total) ∨
        (∃ k e, s.cad[n].st = .running k e ∧ e * 2 ^ 32 ≤ s.time.total ∧ s.cad[n].pulse = none ∧
          s.cad[n].endedNow = false) ∨
        ∃ k e, s.cad[n].st = .armed k e ∧ e * 2 ^ 32 ≤ s.time.total ∧
          (s.mayFire n ∨ ((s.cadRec n).policy = .whenTraced ∧ s.servo.traced = false)) := by
  simp only [State.cadReached, Bool.or_eq_true, any_atOrPast_iff, mayFire_iff, ← wouldMiss_iff]
  refine or_congr_right ?_
  cases s.cad[n].st <;> simp [atOrPast_iff, and_assoc, or_comm]

theorem isReached_iff {s : State} {q : SwitchReq} :
    q.isReached s = true ↔
      ∃ sec ns, q.trigger = .atTime sec ns ∧
        (q.due = true ∧ q.dueTick = true ∨ q.due = false ∧ (sec * 10 ^ 9 + ns) * 2 ^ 32 ≤ s.time.total) := by
  unfold SwitchReq.isReached
  cases q.trigger with
  | atEdge c => simp
  | atTime sec ns => cases hdue : q.due <;> simp [atOrPast_iff, triggerNs]

theorem allCad_any {f : Fin 8 → Bool} : allCad.any f = true ↔ ∃ n, f n = true := by
  rw [List.any_eq_true]
  refine ⟨fun ⟨n, _, h⟩ => ⟨n, h⟩, fun ⟨n, h⟩ => ⟨n, ?_, h⟩⟩
  exact (by decide : ∀ m : Fin 8, m ∈ allCad) n

theorem eventReached_iff {s : State} :
    s.eventReached = true ↔ (∃ n, s.cadReached n = true) ∨ ∃ q ∈ s.switch, q.isReached s = true := by
  rw [State.eventReached, Bool.or_eq_true, allCad_any]
  refine or_congr_right ?_
  cases s.switch <;> simp

theorem not_eventReached_iff {s : State} :
    s.eventReached = false ↔ (∀ n, s.cadReached n = false) ∧ ∀ q ∈ s.switch, q.isReached s = false := by
  rw [Bool.eq_false_iff, ne_eq, eventReached_iff]
  simp only [not_or, not_exists, not_and, Bool.not_eq_true]

/-- With no event left every output that is active runs on. -/
theorem isLive_of_quiet {s : State} (h : s.eventReached = false) (n : Fin 8) : s.isLive n = s.cad[n].pulse.isSome := by
  have hn := (not_eventReached_iff.mp h).1 n
  unfold State.isLive
  cases hp : s.cad[n].pulse with
  | none => rfl
  | some e =>
    have hlate : s.atOrPast e = false := by
      rw [Bool.eq_false_iff]
      intro hpast
      exact Bool.false_ne_true (hn.symm.trans (cadReached_iff.mpr (.inl ⟨e, hp, atOrPast_iff.mp hpast⟩)))
    rw [Option.any_some, hlate]
    rfl

/-! ### What is shown -/

/-- Outputs are taken from the word alone (R168). -/
theorem Serializer.outputs_congr {x y : Serializer} (c : LabelCfg) (h : x.word = y.word) : x.outputs c = y.outputs c := by
  rw [Serializer.outputs, Serializer.outputs, h]

/-- The serializers and the pins stand at the levels the state gives them. -/
structure State.showsNow (s : State) : Prop where
  outputs (m : Fin 2) : (s.ser[m].data, s.ser[m].clk) = s.ser[m].outputs (s.label m)
  pins (i : Fin 12) : s.pins[i] = s.lineLevel i

theorem viewNow_active (s : State) (n : Fin 8) : s.viewNow.active[n] = s.isLive n := by
  fin_cases n <;> rfl

theorem viewNow_ser (s : State) (m : Fin 2) : s.viewNow.ser[m] = s.serOutputs m := by
  fin_cases m <;> rfl

/-- The level of a route under a view that agrees with the state is the line's (R158, R159). -/
theorem level_eq_lineLevel {t : State} {v : TickView} (hlines : v.lines = t.bank.lines)
    (hactive : ∀ n : Fin 8, v.active[n] = t.cad[n].pulse.isSome)
    (hser : ∀ m : Fin 2, v.ser[m] = (t.ser[m].data, t.ser[m].clk)) (hlocked : v.locked = t.servo.locked)
    (htraced : v.traced = t.servo.traced) (hbackup : v.backup = decide (t.clock ≠ .normal)) (i : Fin 12) :
    (v.lines[i]).level v = t.lineLevel i := by
  have hsource : ∀ x : Source, x.isActive v =
      match x with
      | .low => false
      | .high => true
      | .cadence n => t.cad[n].pulse.isSome
      | .labelData m => t.ser[m].data
      | .labelClock m => t.ser[m].clk
      | .locked => t.servo.locked
      | .traced => t.servo.traced
      | .backup => decide (t.clock ≠ .normal) := fun x => by
    cases x <;> simp only [Source.isActive, hactive, hser, hlocked, htraced, hbackup]
  rw [hlines, Route.level, hsource, State.lineLevel]
  cases hp : (t.bank.lines[i]).polarity
  · exact (if_pos hp).symm
  · exact (if_neg (by rw [show (t.banks[t.active].lines[i]).polarity = .inverted from hp]; nofun)).symm

/-- Showing what a state gives, where no event of the tick is left. -/
theorem showOutputs_showsNow {s : State} (h : s.eventReached = false) : (showOutputs s.viewNow s).showsNow := by
  have hser : ∀ m : Fin 2, s.viewNow.ser[m] = ((showOutputs s.viewNow s).ser[m].data, (showOutputs s.viewNow s).ser[m].clk) :=
    fun m => (showOutputs_outputs s.viewNow s m).symm
  refine ⟨fun m => ?_, fun i => ?_⟩
  · rw [← hser, viewNow_ser]
    exact Serializer.outputs_congr _ (showOutputs_word s.viewNow s m).symm
  · rw [showOutputs_pins]
    exact level_eq_lineLevel (t := showOutputs s.viewNow s) rfl
      (fun n => (viewNow_active s n).trans (isLive_of_quiet h n)) hser rfl rfl rfl i

/-- What is shown goes by the outputs, the pins and what they are taken from. -/
theorem State.showsNow.congr {s t : State} (h : s.showsNow) (hpins : t.pins = s.pins) (hlines : t.bank.lines = s.bank.lines)
    (hcad : ∀ n : Fin 8, t.cad[n].pulse.isSome = s.cad[n].pulse.isSome)
    (hser : ∀ m : Fin 2, t.ser[m].data = s.ser[m].data ∧ t.ser[m].clk = s.ser[m].clk)
    (hword : ∀ m : Fin 2, t.ser[m].outputs (t.label m) = s.ser[m].outputs (s.label m)) (hlocked : t.servo.locked = s.servo.locked)
    (htraced : t.servo.traced = s.servo.traced) (hclock : t.clock = s.clock) : t.showsNow where
  outputs m := by
    rw [(hser m).1, (hser m).2, hword]
    exact h.outputs m
  pins i := by
    have hroute : t.banks[t.active].lines = s.banks[s.active].lines := hlines
    rw [hpins, h.pins]
    simp only [State.lineLevel, hroute, hcad, hser, hlocked, htraced, hclock]

/-! ### The outputs of a tick -/

/-- The end of a tick before it may settle: what the tick will show is held back. -/
def tickHeld (s : State) : State := { closeTick (limitPulses s) with view := some (limitPulses s).viewNow }

theorem tickOutputs_eq (s : State) : tickOutputs s = settleTick (tickHeld s) := rfl

theorem tickHeld_sameBut (s : State) : (limitPulses s).sameBut [.ser, .pins, .view] (tickHeld s) :=
  (closeTick_evolves _).same.trans fun f hf => by cases f <;> simp at hf <;> rfl

/-- Of what an event of a tick goes by, the outputs are no part. -/
theorem eventReached_of_outputs {s t : State} (h : s.sameBut [.ser, .pins, .view] t) : t.eventReached = s.eventReached := by
  have hservo : t.servo = s.servo := h .servo (by decide)
  exact eventReached_congr (h .cad (by decide)) (h .time (by decide))
    (fun n => by rw [cadRec_congr (h .banks (by decide)) (h .active (by decide))]) (by rw [hservo]) (h .switch (by decide))

theorem tickOutputs_eventReached (s : State) : (tickOutputs s).eventReached = (limitPulses s).eventReached :=
  eventReached_of_outputs ((tickHeld_sameBut s).trans ((settleTick_evolves (tickHeld s)).same.mono (by decide)))

theorem tickOutputs_of_reached {s : State} (h : (tickOutputs s).eventReached = true) : tickOutputs s = tickHeld s := by
  have hheld : (tickHeld s).eventReached = true :=
    (eventReached_of_outputs (tickHeld_sameBut s)).trans ((tickOutputs_eventReached s).symm.trans h)
  rw [tickOutputs_eq, settleTick]
  exact if_pos hheld

theorem tickOutputs_of_quiet {s : State} (h : (tickOutputs s).eventReached = false) :
    tickOutputs s = showOutputs (limitPulses s).viewNow (tickHeld s) := by
  have hheld : (tickHeld s).eventReached = false :=
    (eventReached_of_outputs (tickHeld_sameBut s)).trans ((tickOutputs_eventReached s).symm.trans h)
  rw [tickOutputs_eq, settleTick]
  exact if_neg (by rw [hheld]; exact Bool.false_ne_true)

theorem closeTick_word (s : State) (m : Fin 2) : (closeTick s).ser[m].word = s.ser[m].word := by
  unfold closeTick
  split
  · exact showOutputs_word _ s m
  · rfl

theorem closeTick_stepSeen (s : State) (m : Fin 2) : (closeTick s).ser[m].stepSeen = s.ser[m].stepSeen := by
  unfold closeTick
  split
  · exact showOutputs_stepSeen _ s m
  · rfl

theorem tickOutputs_word (s : State) (m : Fin 2) : (tickOutputs s).ser[m].word = s.ser[m].word :=
  (settleTick_word (tickHeld s) m).trans (closeTick_word (limitPulses s) m)

theorem tickOutputs_stepSeen (s : State) (m : Fin 2) : (tickOutputs s).ser[m].stepSeen = s.ser[m].stepSeen :=
  (settleTick_stepSeen (tickHeld s) m).trans (closeTick_stepSeen (limitPulses s) m)

theorem TickView.eq_of_fields {v w : TickView} (hactive : v.active = w.active) (hser : v.ser = w.ser)
    (hlines : v.lines = w.lines) (hlocked : v.locked = w.locked) (htraced : v.traced = w.traced)
    (hbackup : v.backup = w.backup) : v = w := by
  cases v
  cases w
  subst hactive hser hlines hlocked htraced hbackup
  rfl

/-- What a view is taken from. -/
theorem viewNow_congr {s t : State} (hlive : ∀ n, t.isLive n = s.isLive n)
    (hser : ∀ m : Fin 2, t.serOutputs m = s.serOutputs m) (hlines : t.bank.lines = s.bank.lines)
    (hlocked : t.servo.locked = s.servo.locked) (htraced : t.servo.traced = s.servo.traced) (hclock : t.clock = s.clock) :
    t.viewNow = s.viewNow :=
  TickView.eq_of_fields
    (Vector.ext fun i hi => (viewNow_active t ⟨i, hi⟩).trans ((hlive _).trans (viewNow_active s ⟨i, hi⟩).symm))
    (Vector.ext fun i hi => (viewNow_ser t ⟨i, hi⟩).trans ((hser _).trans (viewNow_ser s ⟨i, hi⟩).symm))
    hlines hlocked htraced (congrArg (fun c : ClockState => decide (c ≠ .normal)) hclock)

theorem isLive_congr {s t : State} (hcad : t.cad = s.cad) (htime : t.time = s.time) (n : Fin 8) :
    t.isLive n = s.isLive n := by
  rw [State.isLive, State.isLive, hcad, atOrPast_congr htime]

theorem label_congr {s t : State} (hbanks : t.banks = s.banks) (hactive : t.active = s.active) (m : Fin 2) :
    t.label m = s.label m := by
  simp only [State.label, State.bank, hbanks, hactive]

/-- What a tick holds back is what the state gives. -/
theorem tickHeld_view (s : State) : (tickHeld s).view = some (tickHeld s).viewNow := by
  have h := tickHeld_sameBut s
  have hbanks : (tickHeld s).banks = (limitPulses s).banks := h .banks (by decide)
  have hactive : (tickHeld s).active = (limitPulses s).active := h .active (by decide)
  have hservo : (tickHeld s).servo = (limitPulses s).servo := h .servo (by decide)
  refine congrArg some (viewNow_congr (isLive_congr (h .cad (by decide)) (h .time (by decide))) (fun m => ?_) ?_ (by rw [hservo])
    (by rw [hservo]) (h .clock (by decide))).symm
  · rw [State.serOutputs, State.serOutputs, label_congr hbanks hactive]
    exact Serializer.outputs_congr _ (closeTick_word (limitPulses s) m)
  · simp only [State.bank, hbanks, hactive]

/-- Once a tick reaches no event, the outputs stand as it leaves the state. -/
theorem tickOutputs_shows {s : State} (h : (tickOutputs s).eventReached = false) :
    (tickOutputs s).view = none ∧ (tickOutputs s).showsNow := by
  have hview : (limitPulses s).viewNow = (tickHeld s).viewNow := Option.some.inj (tickHeld_view s)
  have hheld : (tickHeld s).eventReached = false :=
    (eventReached_of_outputs (tickHeld_sameBut s)).trans ((tickOutputs_eventReached s).symm.trans h)
  rw [tickOutputs_of_quiet h, hview]
  exact ⟨rfl, showOutputs_showsNow hheld⟩

/-! ### The end of a tick -/

theorem tickEnd_cad (inp : TickIn) (w : State) (n : Fin 8) :
    (tickEnd inp w).cad[n] = { w.cad[n] with pulse := limitPulse w w.cad[n].pulse } := by
  have hpre : w.sameBut [.residence, .exch, .departing] (takeEgress (tickStamps inp w)) :=
    ((tickStamps_sameBut inp w).mono (by decide)).trans (takeEgress_sameBut _)
  have hcad : (takeEgress (tickStamps inp w)).cad = w.cad := hpre .cad (by decide)
  have htime : (takeEgress (tickStamps inp w)).time = w.time := hpre .time (by decide)
  rw [tickEnd_eq, tickOutputs_cad, hcad]
  unfold limitPulse
  rw [htime]

theorem takeEgress_ser (inp : TickIn) (w : State) : (takeEgress (tickStamps inp w)).ser = w.ser :=
  (((tickStamps_sameBut inp w).mono (by decide)).trans (takeEgress_sameBut _)) .ser (by decide)

theorem tickEnd_word (inp : TickIn) (w : State) (m : Fin 2) : (tickEnd inp w).ser[m].word = w.ser[m].word := by
  rw [tickEnd_eq, tickOutputs_word, takeEgress_ser]

theorem tickEnd_stepSeen (inp : TickIn) (w : State) (m : Fin 2) : (tickEnd inp w).ser[m].stepSeen = w.ser[m].stepSeen := by
  rw [tickEnd_eq, tickOutputs_stepSeen, takeEgress_ser]

theorem tickEnd_shows {inp : TickIn} {w : State} (h : (tickEnd inp w).eventReached = false) :
    (tickEnd inp w).view = none ∧ (tickEnd inp w).showsNow := tickOutputs_shows h

/-- Without a departure a tick hands nothing over. -/
theorem tickEnd_of_none {inp : TickIn} {w : State} (h : w.departing = []) :
    tickEnd inp w = tickOutputs (tickStamps inp w) := by
  have hd : (tickStamps inp w).departing = [] := (tickStamps_sameBut inp w .departing (by decide)).trans h
  rw [tickEnd_eq, takeEgress, handOverThose_none _ _ hd]

theorem tickOutputs_notifySeq (s : State) : (tickOutputs s).notifySeq = s.notifySeq := by
  have hclose : (closeTick (limitPulses s)).notifySeq = s.notifySeq := by
    unfold closeTick
    split
    · obtain ⟨_, _, h⟩ := showOutputs_frame _ (limitPulses s)
      rw [h]
      rfl
    · rfl
  rw [tickOutputs, settleTick_notifySeq]
  exact hclose

/-! ### A tick with no step asked for -/

theorem tickAll_of_no_steps {inp : TickIn} {s : State} (h : s.steps = []) : tickAll inp s = tickEnd inp (tickStart inp s) := by
  rw [tickAll_eq, takeSteps_of_none ((tickStart_steps inp s).trans h)]

theorem tickStart_time (inp : TickIn) (s : State) : (tickStart inp s).time = s.time.advance s.increment := rfl

theorem tickStart_elapsed (inp : TickIn) (s : State) :
    (tickStart inp s).elapsed = (advanceCounters s.increment s).elapsed ∧
      (tickStart inp s).elapsedRem = (advanceCounters s.increment s).elapsedRem := ⟨rfl, rfl⟩

/-- The units of a tick are those that a state of the same units has. -/
theorem tickStart_before {s u : State} (h : u = tickCads (tickCounters s.increment s)) :
    u.ser = s.ser ∧ u.cap = s.cap ∧ u.capRec = s.capRec ∧ u.switch = s.switch := by
  have hkept : s.evolves [.time, .elapsed, .elapsedRem, .prevTime, .prevTime2, .cad] u :=
    h ▸ ((tickCounters_evolves _ s).mono (by decide)).trans ((tickCads_evolves _).mono (by decide))
  exact ⟨hkept.same .ser (by decide), hkept.same .cap (by decide), hkept.same .capRec (by decide),
    hkept.same .switch (by decide)⟩

theorem tickUnits_ser (inp : TickIn) (s : State) (m : Fin 2) : (tickUnits inp s).ser[m] = s.ser[m].countTick := by
  fin_cases m <;> rfl

theorem tickUnits_cap (inp : TickIn) (s : State) (n : Fin 4) :
    (tickUnits inp s).cap[n] = s.cap[n].tick s.capRec[n] inp.cap[n] := mapCap_get _ _ n

theorem tickStart_ser (inp : TickIn) (s : State) (m : Fin 2) : (tickStart inp s).ser[m] = s.ser[m].countTick := by
  obtain ⟨hser, -⟩ := tickStart_before (s := s) rfl
  refine (tickUnits_ser inp (tickCads (tickCounters s.increment s)) m).trans ?_
  rw [hser]

theorem tickStart_cap (inp : TickIn) (s : State) (n : Fin 4) :
    (tickStart inp s).cap[n] = s.cap[n].tick s.capRec[n] inp.cap[n] := by
  obtain ⟨-, hcap, hrec, -⟩ := tickStart_before (s := s) rfl
  refine (tickUnits_cap inp (tickCads (tickCounters s.increment s)) n).trans ?_
  rw [hcap, hrec]

theorem tickStart_switch (inp : TickIn) (s : State) :
    (tickStart inp s).switch = s.switch.map fun q => { q with dueTick := q.due } := by
  obtain ⟨-, -, -, hswitch⟩ := tickStart_before (s := s) rfl
  rw [← hswitch]
  rfl

theorem tickStart_cad (inp : TickIn) (s : State) (n : Fin 8) : (tickStart inp s).cad[n] = s.cad[n].tick := by
  have hunits : (tickStart inp s).cad = (tickCads (tickCounters s.increment s)).cad :=
    ((setClock_evolves _ _).same .cad (by decide)).trans ((tickUnits_evolves inp _).same .cad (by decide))
  have hcounters : (tickCounters s.increment s).cad = s.cad := (tickCounters_evolves _ s).same .cad (by decide)
  rw [hunits, tickCads_get, hcounters]

theorem setCounters_port (s : State) (t : TimeVal) (e : Elapsed) (r : BitVec 24) (q : Port) :
    State.port { s with time := t, elapsed := e, elapsedRem := r } q = s.port q := by
  cases q <;> rfl

theorem advanceCounters_port (amount : Nat) (s : State) (q : Port) : (advanceCounters amount s).port q = s.port q := by
  rw [advanceCounters]
  exact setCounters_port s _ _ _ q

theorem setPrevTimes_port (s : State) (p p2 : Nat) (q : Port) :
    State.port { s with prevTime := p, prevTime2 := p2 } q = s.port q := by
  cases q <;> rfl

theorem setClock_port (s : State) (c : ClockState) (q : Port) : State.port { s with clock := c } q = s.port q := by
  cases q <;> rfl

theorem tickUnits_port (inp : TickIn) (s : State) (q : Port) : (tickUnits inp s).port q = s.port q := by
  cases q <;> rfl

theorem tickCads_port (s : State) (q : Port) : (tickCads s).port q = s.port q := by
  cases q <;> rfl

theorem tickCounters_port (amount : Nat) (s : State) (q : Port) : (tickCounters amount s).port q = s.port q :=
  (setPrevTimes_port (advanceCounters amount s) s.time.total s.prevTime q).trans (advanceCounters_port amount s q)

theorem tickStart_port (inp : TickIn) (s : State) (q : Port) : (tickStart inp s).port q = s.port q :=
  (setClock_port _ _ q).trans ((tickUnits_port inp _ q).trans ((tickCads_port _ q).trans (tickCounters_port _ s q)))

theorem tickEnd_elapsedRem (inp : TickIn) (w : State) : (tickEnd inp w).elapsedRem = w.elapsedRem :=
  tickEnd_sameBut inp w .elapsedRem (by decide)

/-- What a capture line in use takes at a tick (R178). -/
theorem CapLine.tick_of_used {r : CapRec} (h : r.sel ≠ .none) (level : Bool) (x : CapLine) :
    x.tick r level = { x with sample := level, qual := x.qual.tick level } := if_neg h

end Sys2Proof.Machine
end

section
/-!
PROOFS. A tick with no step asked for (R92, R93, R3, R10, R137, R159, R168, R178).
-/

namespace Sys2Proof.Machine

theorem limitTotal_eq : limitTotal = 2 ^ 48 * 10 ^ 9 * 2 ^ 32 := congrArg (· * 2 ^ 32) (by rw [limitNs])

/-- The time counter gains the increment, up to the top of its range (R92). -/
theorem tickStart_total (inp : TickIn) (s : State) :
    (tickStart inp s).time.total = min (s.time.total + incrementOf s.servo.a) (2 ^ 48 * 10 ^ 9 * 2 ^ 32 - 1) := by
  rw [tickStart_time, TimeVal.advance_total, limitTotal_eq, State.increment]

/-- The elapsed counter gains the increment, wrapping (R93). -/
theorem tickStart_elapsedTotal (inp : TickIn) (s : State) :
    (tickStart inp s).elapsed.toNat * 2 ^ 24 + (tickStart inp s).elapsedRem.toNat =
      (s.elapsed.toNat * 2 ^ 24 + s.elapsedRem.toNat + incrementOf s.servo.a) % 2 ^ 88 := by
  obtain ⟨helapsed, hrem⟩ := tickStart_elapsed inp s
  have h := advanceCounters_elapsed s.increment s
  rw [elapsedTotal, elapsedTotal, ← helapsed, ← hrem, State.increment] at h
  exact h

theorem tickCounters_prev (amount : Nat) (s : State) :
    (tickCounters amount s).prevTime = s.time.total ∧ (tickCounters amount s).prevTime2 = s.prevTime := ⟨rfl, rfl⟩

theorem tickStart_prev (inp : TickIn) (s : State) :
    (tickStart inp s).prevTime = s.time.total ∧ (tickStart inp s).prevTime2 = s.prevTime := by
  have hunits : (tickCounters s.increment s).evolves [.cad, .ser, .cap, .switch, .clock] (tickStart inp s) :=
    (((tickCads_evolves _).mono (by decide)).trans ((tickUnits_evolves inp _).mono (by decide))).trans
      ((setClock_evolves _ _).mono (by decide))
  have hprev : (tickStart inp s).prevTime = (tickCounters s.increment s).prevTime := hunits.same .prevTime (by decide)
  have hprev2 : (tickStart inp s).prevTime2 = (tickCounters s.increment s).prevTime2 := hunits.same .prevTime2 (by decide)
  exact ⟨hprev.trans (tickCounters_prev _ s).1, hprev2.trans (tickCounters_prev _ s).2⟩

/-- R137 in the words of the obligations. -/
theorem limitPulse_some {s : State} {e : Nat} :
    limitPulse s (some e) = if s.time = TimeVal.top ∧ 2 ^ 48 * 10 ^ 9 ≤ e then none else some e := by
  rw [limitPulse, limitNs]

theorem limitPulse_eq_some {s : State} {p : Option Nat} {e : Nat} (h : limitPulse s p = some e) : p = some e := by
  cases p with
  | none => exact h
  | some x =>
    rw [limitPulse_some] at h
    split at h
    · cases h
    · exact h

/-- A serializer after a tick has counted it for its word (R168). -/
theorem tickAll_ser {inp : TickIn} {s : State} (h : s.steps = []) (m : Fin 2) :
    (tickAll inp s).ser[m].word = (s.ser[m].word.map fun w => { w with count := w.count + 1 }) ∧
      (tickAll inp s).ser[m].stepSeen = s.ser[m].stepSeen := by
  rw [tickAll_of_no_steps h, tickEnd_word, tickEnd_stepSeen, tickStart_ser]
  exact ⟨rfl, rfl⟩

theorem tickAll_cad {inp : TickIn} {s : State} (h : s.steps = []) (n : Fin 8) :
    (tickAll inp s).cad[n] =
      { s.cad[n] with endedNow := false, pulse := limitPulse (tickAll inp s) s.cad[n].pulse } := by
  have htime : (tickAll inp s).time = (tickStart inp s).time := by rw [tickAll_of_no_steps h, tickEnd_time]
  have hlimit : limitPulse (tickAll inp s) = limitPulse (tickStart inp s) := by
    funext p
    unfold limitPulse
    rw [htime]
  rw [hlimit, tickAll_of_no_steps h, tickEnd_cad, tickStart_cad]
  rfl

theorem tickAll_switch {inp : TickIn} {s : State} (h : s.steps = []) :
    (tickAll inp s).switch = s.switch.map fun q => { q with dueTick := q.due } := by
  rw [tickAll_of_no_steps h]
  exact (tickEnd_sameBut inp _ .switch (by decide)).trans (tickStart_switch inp s)

theorem tickAll_cap {inp : TickIn} {s : State} (h : s.steps = []) (n : Fin 4) :
    (tickAll inp s).cap[n] = s.cap[n].tick s.capRec[n] inp.cap[n] := by
  have hcap : (tickEnd inp (tickStart inp s)).cap = (tickStart inp s).cap := tickEnd_sameBut inp _ .cap (by decide)
  rw [tickAll_of_no_steps h, hcap, tickStart_cap]

/-- A tick that the hypotheses of O33 leave without an event. -/
theorem tickAll_quiet {inp : TickIn} {s : State} (hno : s.steps = [])
    (hcad : ∀ n : Fin 8,
      (∀ k e, s.cad[n].st = .running k e ∨ s.cad[n].st = .armed k e → (tickAll inp s).time.total < e * 2 ^ 32) ∧
        ∀ e ∈ s.cad[n].pulse, (tickAll inp s).time.total < e * 2 ^ 32)
    (hswitch : ∀ q ∈ s.switch, ∀ sec ns, q.trigger = .atTime sec ns →
      q.due = false ∧ (tickAll inp s).time.total < (sec * 10 ^ 9 + ns) * 2 ^ 32) :
    (tickAll inp s).eventReached = false := by
  refine not_eventReached_iff.mpr ⟨fun n => ?_, fun q hq => ?_⟩
  · obtain ⟨hedge, hpulse⟩ := hcad n
    rw [Bool.eq_false_iff, ne_eq, cadReached_iff, tickAll_cad hno]
    rintro (⟨e, he, hp⟩ | ⟨k, e, hst, hp, -⟩ | ⟨k, e, hst, hp, -⟩)
    · exact Nat.not_lt.mpr hp (hpulse e (limitPulse_eq_some he))
    · exact Nat.not_lt.mpr hp (hedge k e (.inl hst))
    · exact Nat.not_lt.mpr hp (hedge k e (.inr hst))
  · rw [tickAll_switch hno, Option.mem_map] at hq
    obtain ⟨q0, hq0, rfl⟩ := hq
    rw [Bool.eq_false_iff, ne_eq, isReached_iff]
    rintro ⟨sec, ns, htr, h⟩
    obtain ⟨hdue, hlate⟩ := hswitch q0 hq0 sec ns htr
    rcases h with ⟨h, -⟩ | ⟨-, h⟩
    · exact Bool.false_ne_true (hdue.symm.trans h)
    · exact Nat.not_lt.mpr h hlate

theorem tickAll_ingress {inp : TickIn} {s : State} (hno : s.steps = []) (p : Port) :
    ∃ tx oq, (tickAll inp s).port p =
      { (tickStamps inp (tickStart inp s)).port p with tx := tx, ordinaryQ := oq } := by
  rw [tickAll_of_no_steps hno]
  exact tickEnd_sentBut inp _ p

/-- The stamps of a tick are read from the counters it leaves (R3). -/
theorem ingressStamp_congr {s t : State} (htime : t.time = s.time) (helapsed : t.elapsed = s.elapsed) (latency : Nat) :
    ingressStamp s latency =
      { time := t.time.reading - latency, elapsed := t.elapsed - BitVec.ofNat 64 latency } := by
  rw [ingressStamp, htime, helapsed]

theorem setCounters_notifier (s : State) (t : TimeVal) (e : Elapsed) (r : BitVec 24) :
    State.groups { s with time := t, elapsed := e, elapsedRem := r } = s.groups ∧
      State.notifySeq { s with time := t, elapsed := e, elapsedRem := r } = s.notifySeq := ⟨rfl, rfl⟩

theorem advanceCounters_notifier (amount : Nat) (s : State) :
    (advanceCounters amount s).groups = s.groups ∧ (advanceCounters amount s).notifySeq = s.notifySeq := by
  rw [advanceCounters]
  exact setCounters_notifier s _ _ _

theorem setPrevTimes_notifier (s : State) (p p2 : Nat) :
    State.groups { s with prevTime := p, prevTime2 := p2 } = s.groups ∧
      State.notifySeq { s with prevTime := p, prevTime2 := p2 } = s.notifySeq := ⟨rfl, rfl⟩

theorem tickCounters_notifier (amount : Nat) (s : State) :
    (tickCounters amount s).groups = s.groups ∧ (tickCounters amount s).notifySeq = s.notifySeq := by
  obtain ⟨hgroups, hseq⟩ := setPrevTimes_notifier (advanceCounters amount s) s.time.total s.prevTime
  obtain ⟨kgroups, kseq⟩ := advanceCounters_notifier amount s
  exact ⟨hgroups.trans kgroups, hseq.trans kseq⟩

theorem tickUnits_notifier (inp : TickIn) (s : State) :
    (tickUnits inp (tickCads s)).groups = s.groups ∧ (tickUnits inp (tickCads s)).notifySeq = s.notifySeq := ⟨rfl, rfl⟩

theorem setClock_notifier (s : State) (c : ClockState) :
    State.groups { s with clock := c } = s.groups ∧ State.notifySeq { s with clock := c } = s.notifySeq := ⟨rfl, rfl⟩

theorem tickStart_notifier (inp : TickIn) (s : State) :
    (tickStart inp s).groups = s.groups ∧ (tickStart inp s).notifySeq = s.notifySeq := by
  obtain ⟨hgroups, hseq⟩ := tickCounters_notifier s.increment s
  obtain ⟨kgroups, kseq⟩ := tickUnits_notifier inp (tickCounters s.increment s)
  obtain ⟨lgroups, lseq⟩ := setClock_notifier (tickUnits inp (tickCads (tickCounters s.increment s)))
    (tickUnits inp (tickCads (tickCounters s.increment s))).clock.tick
  exact ⟨lgroups.trans (kgroups.trans hgroups), lseq.trans (kseq.trans hseq)⟩

theorem tickStamps_notifier (inp : TickIn) (s : State) :
    (tickStamps inp s).groups = s.groups ∧ (tickStamps inp s).notifySeq = s.notifySeq := ⟨rfl, rfl⟩

/-- Settles O33. -/
theorem tickAdvancesCounters : Obligations.TickAdvancesCounters := by
  intro inp s hno inc top
  have hall : s.sameBut tickAllFields (tickAll inp s) := tickAll_sameBut inp s
  have hend : (tickStart inp s).sameBut tickEndFields (tickAll inp s) := by
    rw [tickAll_of_no_steps hno]
    exact tickEnd_sameBut inp _
  have hstart := tickStart_evolves inp s
  have htime : (tickAll inp s).time = (tickStart inp s).time := hend .time (by decide)
  have helapsed : (tickAll inp s).elapsed = (tickStart inp s).elapsed := hend .elapsed (by decide)
  have hrem : (tickAll inp s).elapsedRem = (tickStart inp s).elapsedRem := hend .elapsedRem (by decide)
  have hstamp : ∀ latency, ingressStamp (tickStart inp s) latency =
      { time := (tickAll inp s).time.reading - latency,
        elapsed := (tickAll inp s).elapsed - BitVec.ofNat 64 latency } := ingressStamp_congr htime helapsed
  have hactive : (tickAll inp s).active = s.active := (hend .active (by decide)).trans (hstart.same .active (by decide))
  have hlabel : ∀ m, (tickEnd inp (tickStart inp s)).label m = s.label m := fun m => by
    rw [← tickAll_of_no_steps hno]
    exact label_congr (hall .banks (by decide)) hactive m
  refine ⟨tickAll inp s, rfl, ?_, ?_, (hend .prevTime (by decide)).trans (tickStart_prev inp s).1,
    (hend .prevTime2 (by decide)).trans (tickStart_prev inp s).2, ?_, tickAll_clock inp s, tickAll_switch hno, ?_,
    fun m => tickAll_ser hno m, fun hcad hswitch => ?_, fun n => ?_, fun n => ?_, fun p => ?_,
    ?_, ?_, ?_, ?_, ?_, ?_, ?_, ?_, ?_, ?_, ?_, ?_, ?_, fun hd => ?_⟩
  · exact (congrArg TimeVal.total htime).trans (tickStart_total inp s)
  · rw [helapsed, hrem]
    exact tickStart_elapsedTotal inp s
  · exact (hend .steps (by decide)).trans ((tickStart_steps inp s).trans hno)
  · rw [tickAll_of_no_steps hno]
    exact tickEnd_departing inp _
  · have hquiet := tickAll_quiet hno hcad hswitch
    rw [tickAll_of_no_steps hno] at hquiet ⊢
    obtain ⟨hview, hshows⟩ := tickEnd_shows hquiet
    refine ⟨hview, fun m => ?_, hshows.pins⟩
    rw [← hlabel m]
    exact hshows.outputs m
  · rw [tickAll_cad hno]
    refine ⟨rfl, fun h => ?_, fun e he => ?_⟩
    · rw [h]
      rfl
    · rw [he]
      exact limitPulse_some
  · rw [tickAll_cap hno]
    refine ⟨fun h => if_pos h, fun h => ?_⟩
    rw [CapLine.tick_of_used h]
    refine ⟨rfl, fun hq => ?_, fun a hq => ?_, fun a c hq => ?_⟩
    · rw [hq]
      rfl
    · rw [hq]
      rfl
    · rw [hq]
      simp only [Qualifier.tick]
      split
      · rfl
      · rfl
  · obtain ⟨tx, oq, hport⟩ := tickAll_ingress (inp := inp) hno p
    simp only [hport, tickStamps_port, tickStart_port, hstamp]
    cases p <;> exact ⟨trivial, trivial, rfl⟩
  · exact hall .servo (by decide)
  · exact hall .servoCfg (by decide)
  · exact hall .sources (by decide)
  · exact hall .copies (by decide)
  · exact hall .classify (by decide)
  · exact hall .banks (by decide)
  · exact hactive
  · exact hall .capRec (by decide)
  · exact hall .requests (by decide)
  · exact hall .managers (by decide)
  · exact hall .civil (by decide)
  · exact hall .notifyCfg (by decide)
  · exact hall .restart (by decide)
  · have hnone : (tickStart inp s).departing = [] := (hstart.same .departing (by decide)).trans hd
    have hout : tickAll inp s = tickOutputs (tickStamps inp (tickStart inp s)) := by
      rw [tickAll_of_no_steps hno, tickEnd_of_none hnone]
    have hkept : s.sameBut [.time, .elapsed, .elapsedRem, .prevTime, .prevTime2, .cad, .ser, .cap, .switch, .clock, .pins, .view]
        (tickAll inp s) := by
      rw [hout]
      exact ((hstart.same.mono (by decide)).trans ((tickStamps_sameBut inp _).mono (by decide))).trans
        ((tickOutputs_evolves _).same.mono (by decide))
    refine ⟨hkept .exch (by decide), hkept .residence (by decide), ?_, ?_, fun p => ?_⟩
    · rw [hout, tickOutputs_groups]
      exact (tickStamps_notifier inp _).1.trans (tickStart_notifier inp s).1
    · rw [hout, tickOutputs_notifySeq]
      exact (tickStamps_notifier inp _).2.trans (tickStart_notifier inp s).2
    · rw [hout, tickOutputs_port, tickStamps_port, tickStart_port]

end Sys2Proof.Machine
end

section
/-!
PROOFS. A loss of TCLK (R113, R114, R136), and the flags that ticks, steps and catch-up advances raise.
-/

namespace Sys2Proof.Machine

/-! ### Flags -/

/-- The events that nothing but a step and the end of a holdover raises. -/
def Event.isNotice (f : Event) : Prop := f ≠ .timeStepped ∧ f ≠ .holdoverExpired

theorem State.flagsFrom.refl (E : Event → Prop) (s : State) : s.flagsFrom E s := ⟨fun _ h => h, fun _ _ => rfl⟩

theorem State.flagsFrom.mono {E D : Event → Prop} {s t : State} (h : s.flagsFrom E t) (hED : ∀ f, E f → D f) :
    s.flagsFrom D t := ⟨h.1, fun f hf => h.2 f fun he => hf (hED f he)⟩

theorem State.flagsFrom.foldl {α : Type} {E : Event → Prop} {g : State → α → State} (hg : ∀ (t : State) a, t.flagsFrom E (g t a))
    (l : List α) (s : State) : s.flagsFrom E (l.foldl g s) :=
  List.foldlRecOn (motive := s.flagsFrom E) l g (.refl E s) fun _ ht a _ => ht.trans (hg _ a)

theorem flagsFrom_of_groups {E : Event → Prop} {s t : State} (h : t.groups = s.groups) : s.flagsFrom E t :=
  (samePending_of_groups h).flagsFrom E

theorem raise_isNotice {e : Event} (he : e.isNotice) (s : State) : s.flagsFrom Event.isNotice (raise e s) :=
  (raise_flags e s).mono fun f hf => by
    rcases hf with rfl | ⟨p, rfl⟩
    · exact he
    · exact ⟨nofun, nofun⟩

theorem raiseIf_isNotice {e : Event} (he : e.isNotice) (c : Bool) (s : State) : s.flagsFrom Event.isNotice (raiseIf c e s) := by
  cases c
  · exact .refl _ s
  · exact raise_isNotice he s

theorem realigned_isNotice (n : Fin 8) : (Event.realigned n).isNotice := ⟨nofun, nofun⟩
theorem oneshotMissed_isNotice : Event.oneshotMissed.isNotice := ⟨nofun, nofun⟩
theorem bankSwitched_isNotice : Event.bankSwitched.isNotice := ⟨nofun, nofun⟩
theorem lockLost_isNotice : Event.lockLost.isNotice := ⟨nofun, nofun⟩
theorem clockLoss_isNotice : Event.clockLoss.isNotice := ⟨nofun, nofun⟩
theorem residenceMiss_isNotice : Event.residenceMiss.isNotice := ⟨nofun, nofun⟩

theorem setCad_raise_isNotice {e : Event} (he : e.isNotice) (n : Fin 8) (x : CadRun) (s : State) :
    s.flagsFrom Event.isNotice (raise e (s.setCad n x)) :=
  (flagsFrom_of_groups (State.setCad_groups s n x)).trans (raise_isNotice he _)

theorem stepCad_flags (n : Fin 8) (s : State) : s.flagsFrom Event.isNotice (stepCad n s) := by
  unfold stepCad
  dsimp only
  split
  · exact setCad_raise_isNotice (realigned_isNotice n) n _ s
  · split
    · exact setCad_raise_isNotice oneshotMissed_isNotice n _ s
    · exact .refl _ s
  · exact flagsFrom_of_groups (State.setCad_groups s n _)
  · exact .refl _ s

theorem catchUpCad_flags (n : Fin 8) (s : State) : s.flagsFrom Event.isNotice (catchUpCad n s) := by
  unfold catchUpCad
  dsimp only
  split
  · split
    · exact setCad_raise_isNotice (realigned_isNotice n) n _ s
    · exact flagsFrom_of_groups (State.setCad_groups s n _)
  · split
    · exact setCad_raise_isNotice oneshotMissed_isNotice n _ s
    · exact flagsFrom_of_groups (State.setCad_groups s n _)
  · exact flagsFrom_of_groups (State.setCad_groups s n _)

theorem stepCads_flags (s : State) : s.flagsFrom Event.isNotice (stepCads s) :=
  .foldl (fun t n => stepCad_flags n t) allCad s

theorem catchUpCads_flags (s : State) : s.flagsFrom Event.isNotice (catchUpCads s) :=
  .foldl (fun t n => catchUpCad_flags n t) allCad s

theorem switchedUnits_groups (target : Fin 4) (at_ before : Nat) (s : State) :
    (switchedUnits target at_ before s).groups = s.groups := by
  have hcad : ∀ (l : List (Fin 8)) (t : State),
      (l.foldl (fun t n => switchCad s.bank s.banks[target] (atOrAfter at_ before) n t) t).groups = t.groups := fun l t =>
    List.foldlRecOn (motive := fun u : State => u.groups = t.groups) l _ rfl fun u hu n _ => by
      rw [← hu]
      unfold switchCad
      split <;> rfl
  have hser : ∀ (l : List (Fin 2)) (t : State),
      (l.foldl (fun t m => switchSer s.bank s.banks[target] m t) t).groups = t.groups := fun l t =>
    List.foldlRecOn (motive := fun u : State => u.groups = t.groups) l _ rfl fun u hu m _ => by
      rw [← hu]
      unfold switchSer
      dsimp only
      split
      · rfl
      · split <;> rfl
  exact (hser bothSer _).trans (hcad allCad s)

theorem setActive_groups (s : State) (a : Fin 4) (w : Option SwitchReq) :
    State.groups { s with active := a, switch := w } = s.groups := rfl

theorem makeSwitch_flags (target : Fin 4) (at_ before : Nat) (s : State) :
    s.flagsFrom Event.isNotice (makeSwitch target at_ before s) := by
  rw [makeSwitch_eq]
  exact (flagsFrom_of_groups ((setActive_groups _ _ _).trans (switchedUnits_groups target at_ before s))).trans
    (raise_isNotice bankSwitched_isNotice _)

theorem reevaluateSwitch_flags (before s : State) : s.flagsFrom Event.isNotice (reevaluateSwitch before s) := by
  obtain h | ⟨q, at_, -, h⟩ := reevaluateSwitch_cases before s
  · rw [h]
    exact .refl _ s
  · rw [h]
    exact makeSwitch_flags _ _ _ s

theorem setServo_flags {E : Event → Prop} (s : State) (v : Servo) : s.flagsFrom E { s with servo := v } := flagsFrom_of_groups rfl

theorem clearLocked_flags (s : State) : s.flagsFrom Event.isNotice (clearLocked s) :=
  (setServo_flags s _).trans (raiseIf_isNotice lockLost_isNotice _ _)

theorem servoClockLoss_flags (s : State) : s.flagsFrom Event.isNotice (servoClockLoss s) :=
  (setServo_flags s _).trans (clearLocked_flags _)

theorem clearLocked_raises {s : State} (h : s.servo.locked = true) : (clearLocked s).isPending .lockLost = true := by
  rw [clearLocked, h]
  exact raise_isPending_self _ _

theorem servoClockLoss_raises {s : State} (h : s.servo.locked = true) : (servoClockLoss s).isPending .lockLost = true := by
  rw [servoClockLoss]
  exact clearLocked_raises h

theorem consult_flags (q : Port) (bytes : List Byte) (ing egr : Stamp) (mark : CorrMark) (s : State) :
    s.flagsFrom Event.isNotice (consult q bytes ing egr mark s).2 := by
  have hres : ∀ r : List ResRec, s.flagsFrom Event.isNotice { s with residence := r } := fun r => flagsFrom_of_groups rfl
  unfold consult
  dsimp only
  split
  · exact .refl _ s
  · split
    · exact hres _
    · split
      · exact .refl _ s
      · split
        · split
          · exact hres _
          · exact raise_isNotice residenceMiss_isNotice s
        · exact .refl _ s

theorem setExch_groups (s : State) (x : Exchange) : ({ s with exch := x } : State).groups = s.groups := rfl

theorem probeDeparted_groups (seq : BitVec 16) (st : Stamp) (s : State) : (probeDeparted seq st s).groups = s.groups := by
  unfold probeDeparted
  exact iteInduction (motive := fun t : State => t.groups = s.groups) (fun _ => rfl) fun _ => setExch_groups s _

theorem handOver_flags (d : Departure) (s : State) : s.flagsFrom Event.isNotice (handOver d s) := by
  obtain ⟨ing, mark, ho, -⟩ | ⟨seq, -, h⟩ | ⟨-, h⟩ := handOver_cases d s
  · obtain ⟨hkeep, hsame⟩ := consult_flags d.port d.entry.bytes ing (egressStamp s d.latency) mark s
    exact ⟨fun f hf => (handOver_marked_isPending ho s f).trans (hkeep f hf),
      fun f hf => (handOver_marked_isPending ho s f).trans (hsame f hf)⟩
  · rw [h]
    exact flagsFrom_of_groups (probeDeparted_groups _ _ s)
  · rw [h]
    exact State.flagsFrom.refl _ s

theorem setDeparting_groups (s : State) (l : List Departure) : State.groups { s with departing := l } = s.groups := rfl

theorem takeEgress_flags (s : State) : s.flagsFrom Event.isNotice (takeEgress s) := by
  have hstart : s.flagsFrom Event.isNotice { s with departing := s.departing.filter fun _ => !true } :=
    flagsFrom_of_groups (setDeparting_groups s _)
  exact hstart.trans (State.flagsFrom.foldl (fun t d => handOver_flags d t) _ _)

theorem tickEnd_flags (inp : TickIn) (s : State) : s.flagsFrom Event.isNotice (tickEnd inp s) := by
  have hstamps : s.flagsFrom Event.isNotice (tickStamps inp s) := flagsFrom_of_groups (tickStamps_notifier inp s).1
  rw [tickEnd_eq]
  exact (hstamps.trans (takeEgress_flags _)).trans (flagsFrom_of_groups (tickOutputs_groups _))

/-! ### What acting on every cadence raises -/

/-- An event that the action on cadence `c` raises is pending once every cadence has been acted on. -/
theorem allCad_foldl_raises {g : Fin 8 → State → State} {s : State} {c : Fin 8} {f : Event}
    (hK : ∀ n (t : State), t.sameBut [.cad] (g n t)) (hother : ∀ n (t : State), n ≠ c → (g n t).cad[c] = t.cad[c])
    (hkeep : ∀ n (t : State), t.isPending f = true → (g n t).isPending f = true)
    (hraise : ∀ t : State, s.sameBut [.cad] t → t.cad[c] = s.cad[c] → (g c t).isPending f = true) :
    (allCad.foldl (fun t n => g n t) s).isPending f = true := by
  have hkeeps : ∀ (l : List (Fin 8)) (t : State), t.isPending f = true →
      (l.foldl (fun t n => g n t) t).isPending f = true := fun l t ht =>
    List.foldlRecOn (motive := fun u : State => u.isPending f = true) l _ ht fun u hu n _ => hkeep n u hu
  have hall : ∀ (l : List (Fin 8)) (t : State), c ∈ l → s.sameBut [.cad] t → t.cad[c] = s.cad[c] →
      (l.foldl (fun t n => g n t) t).isPending f = true := by
    intro l
    induction l with
    | nil => exact fun t hc => (List.not_mem_nil hc).elim
    | cons n l ih =>
      intro t hc hs ht
      by_cases hn : n = c
      · subst hn
        exact hkeeps l _ (hraise t hs ht)
      · exact ih (g n t) ((List.mem_cons.mp hc).resolve_left (Ne.symm hn)) (hs.trans (hK n t)) ((hother n t hn).trans ht)
  exact hall allCad s ((by decide : ∀ m : Fin 8, m ∈ allCad) c) (.refl s _) rfl

theorem catchUpCads_raises {s : State} {c : Fin 8} {k e : Nat} (hpast : s.atOrPast e = true) :
    (s.cad[c].st = .running k e → (catchUpCads s).isPending (.realigned c) = true) ∧
      (s.cad[c].st = .armed k e → (catchUpCads s).isPending .oneshotMissed = true) := by
  have hother : ∀ n (t : State), n ≠ c → (catchUpCad n t).cad[c] = t.cad[c] := fun n t hn => by
    rw [catchUpCad_cad, if_neg (Ne.symm hn)]
  refine ⟨fun hst => ?_, fun hst => ?_⟩
  · refine allCad_foldl_raises (g := catchUpCad) (fun n t => (catchUpCad_evolves n t).same) hother
      (fun n t => (catchUpCad_flags n t).1 _) fun t ht hcad => ?_
    have hp : t.atOrPast e = true := (congrFun (atOrPast_congr (ht .time (by decide))) e).trans hpast
    rw [catchUpCad]
    simp only [hcad, hst, hp, if_true]
    exact raise_isPending_self _ _
  · refine allCad_foldl_raises (g := catchUpCad) (fun n t => (catchUpCad_evolves n t).same) hother
      (fun n t => (catchUpCad_flags n t).1 _) fun t ht hcad => ?_
    have hp : t.atOrPast e = true := (congrFun (atOrPast_congr (ht .time (by decide))) e).trans hpast
    rw [catchUpCad]
    simp only [hcad, hst, hp, if_true]
    exact raise_isPending_self _ _

theorem stepCads_raises {s : State} {c : Fin 8} {k e : Nat} :
    (s.cad[c].st = .running k e → (stepCads s).isPending (.realigned c) = true) ∧
      (s.cad[c].st = .armed k e → s.atOrPast e = true → (stepCads s).isPending .oneshotMissed = true) := by
  have hother : ∀ n (t : State), n ≠ c → (stepCad n t).cad[c] = t.cad[c] := fun n t hn => by
    rw [stepCad_cad, if_neg (Ne.symm hn)]
  refine ⟨fun hst => ?_, fun hst hpast => ?_⟩
  · refine allCad_foldl_raises (g := stepCad) (fun n t => (stepCad_evolves n t).same) hother
      (fun n t => (stepCad_flags n t).1 _) fun t _ hcad => ?_
    rw [stepCad]
    simp only [hcad, hst]
    exact raise_isPending_self _ _
  · refine allCad_foldl_raises (g := stepCad) (fun n t => (stepCad_evolves n t).same) hother
      (fun n t => (stepCad_flags n t).1 _) fun t ht hcad => ?_
    have hp : t.atOrPast e = true := (congrFun (atOrPast_congr (ht .time (by decide))) e).trans hpast
    rw [stepCad]
    simp only [hcad, hst, hp, if_true]
    exact raise_isPending_self _ _

/-! ### The catch-up advance -/

theorem lossAdvance_time (n : Nat) (inp : TickIn) (s : State) :
    (lossAdvance n inp s).time = s.time.advance (n * s.increment) := rfl

theorem lossAdvance_total (n : Nat) (inp : TickIn) (s : State) :
    (lossAdvance n inp s).time.total = min (s.time.total + n * incrementOf s.servo.a) (2 ^ 48 * 10 ^ 9 * 2 ^ 32 - 1) := by
  rw [lossAdvance_time, TimeVal.advance_total, limitTotal_eq, State.increment]

theorem lossAdvance_elapsed (n : Nat) (inp : TickIn) (s : State) :
    (lossAdvance n inp s).elapsed = (advanceCounters (n * s.increment) s).elapsed ∧
      (lossAdvance n inp s).elapsedRem = (advanceCounters (n * s.increment) s).elapsedRem := ⟨rfl, rfl⟩

theorem lossAdvance_elapsedTotal (n : Nat) (inp : TickIn) (s : State) :
    (lossAdvance n inp s).elapsed.toNat * 2 ^ 24 + (lossAdvance n inp s).elapsedRem.toNat =
      (s.elapsed.toNat * 2 ^ 24 + s.elapsedRem.toNat + n * incrementOf s.servo.a) % 2 ^ 88 := by
  obtain ⟨helapsed, hrem⟩ := lossAdvance_elapsed n inp s
  have h := advanceCounters_elapsed (n * s.increment) s
  rw [elapsedTotal, elapsedTotal, ← helapsed, ← hrem, State.increment] at h
  exact h

/-- The counters of a loss, behind the monitor's move to BACKUP. -/
def lossCounters (n : Nat) (s : State) : State := tickCounters (n * s.increment) { s with clock := .backup none }

theorem lossCounters_kept (n : Nat) (s : State) :
    (lossCounters n s).cad = s.cad ∧ (lossCounters n s).switch = s.switch ∧ (lossCounters n s).groups = s.groups := by
  have hkept : s.evolves [.clock, .time, .elapsed, .elapsedRem, .prevTime, .prevTime2] (lossCounters n s) :=
    ((setClock_evolves s _).mono (by decide)).trans ((tickCounters_evolves _ _).mono (by decide))
  exact ⟨hkept.same .cad (by decide), hkept.same .switch (by decide),
    (tickCounters_notifier (n * s.increment) { s with clock := .backup none }).1.trans (setClock_notifier s _).1⟩

theorem lossAdvance_units (n : Nat) (inp : TickIn) (s : State) :
    (tickUnits inp (tickCads (lossCounters n s))).evolves [.prevTime, .prevTime2] (lossAdvance n inp s) :=
  setPrevTimes_evolves (tickUnits inp (tickCads (lossCounters n s))) _ _

theorem lossAdvance_cad (n : Nat) (inp : TickIn) (s : State) (c : Fin 8) : (lossAdvance n inp s).cad[c] = s.cad[c].tick := by
  obtain ⟨hcad, -, -⟩ := lossCounters_kept n s
  have hunits : (lossAdvance n inp s).cad = (tickCads (lossCounters n s)).cad :=
    ((lossAdvance_units n inp s).same .cad (by decide)).trans ((tickUnits_evolves inp _).same .cad (by decide))
  rw [hunits, tickCads_get, hcad]

theorem tickUnits_switch (inp : TickIn) (s : State) :
    (tickUnits inp s).switch = s.switch.map fun q => { q with dueTick := q.due } := rfl

theorem lossAdvance_switch (n : Nat) (inp : TickIn) (s : State) :
    (lossAdvance n inp s).switch = s.switch.map fun q => { q with dueTick := q.due } := by
  obtain ⟨-, hswitch, -⟩ := lossCounters_kept n s
  have hunits : (lossAdvance n inp s).switch = (tickUnits inp (tickCads (lossCounters n s))).switch :=
    (lossAdvance_units n inp s).same .switch (by decide)
  have hcads : (tickCads (lossCounters n s)).switch = (lossCounters n s).switch :=
    (tickCads_evolves (lossCounters n s)).same .switch (by decide)
  rw [hunits, tickUnits_switch, hcads, hswitch]

theorem lossAdvance_groups (n : Nat) (inp : TickIn) (s : State) : (lossAdvance n inp s).groups = s.groups := by
  obtain ⟨-, -, hgroups⟩ := lossCounters_kept n s
  exact (setPrevTimes_notifier (tickUnits inp (tickCads (lossCounters n s))) _ _).1.trans
    ((tickUnits_notifier inp (lossCounters n s)).1.trans hgroups)

theorem reevaluateSwitch_of_none {before s : State} (h : s.switch = none) : reevaluateSwitch before s = s := by
  rw [reevaluateSwitch, h]

/-- With no switch pending a loss leaves the cadences as the catch-up advance makes them. -/
theorem lossCaughtUp_of_none {n : Nat} {inp : TickIn} {s : State} (h : s.switch = none) :
    lossCaughtUp n inp s = catchUpCads (lossAdvance n inp s) := by
  refine reevaluateSwitch_of_none ?_
  have hcads : (catchUpCads (lossAdvance n inp s)).switch = (lossAdvance n inp s).switch :=
    (catchUpCads_evolves _).same .switch (by decide)
  rw [hcads, lossAdvance_switch, h]
  rfl

/-! ### One cadence at a catch-up advance (R136) -/

section
variable {s : State} {n : Fin 8} {x : CadRun} {k e : Nat}

theorem CadRun.caughtUp_of_running (hst : x.st = .running k e) :
    x.caughtUp s n =
      if s.atOrPast e then
        { x with
          st := .running ((s.cadRec n).firstAt (laterThanNow s)) ((s.cadRec n).edgeTime ((s.cadRec n).firstAt (laterThanNow s)))
          pulse := none
          endedNow := false }
      else { x with pulse := pulseAfter s x.pulse } := by
  rw [CadRun.caughtUp, hst]

theorem CadRun.caughtUp_of_armed (hst : x.st = .armed k e) :
    x.caughtUp s n =
      if s.atOrPast e then { x with st := .done, pulse := pulseAfter s x.pulse } else { x with pulse := pulseAfter s x.pulse } := by
  rw [CadRun.caughtUp, hst]

theorem CadRun.caughtUp_of_resting (hrun : ∀ k e, x.st ≠ .running k e) (harm : ∀ k e, x.st ≠ .armed k e) :
    x.caughtUp s n = { x with pulse := pulseAfter s x.pulse } := by
  unfold CadRun.caughtUp
  split
  · rename_i h
    exact absurd h (hrun _ _)
  · rename_i h
    exact absurd h (harm _ _)
  · rfl

theorem CadRun.caughtUp_last : (x.caughtUp s n).last = x.last := by
  unfold CadRun.caughtUp
  split
  · split <;> rfl
  · split <;> rfl
  · rfl

/-- An output ends at a catch-up advance, when its end time is reached or its cadence realigned, and else runs on. -/
theorem CadRun.caughtUp_pulse :
    (x.caughtUp s n).pulse = pulseAfter s x.pulse ∨
      (∃ k e, x.st = .running k e ∧ s.atOrPast e = true) ∧ (x.caughtUp s n).pulse = none := by
  unfold CadRun.caughtUp
  split
  · rename_i k e hst
    split
    · rename_i hp
      exact .inr ⟨⟨k, e, hst, hp⟩, rfl⟩
    · exact .inl rfl
  · split
    · exact .inl rfl
    · exact .inl rfl
  · exact .inl rfl

end

theorem pulseAfter_of_past {s : State} {e : Nat} (h : s.atOrPast e = true) : pulseAfter s (some e) = none := if_pos h

theorem pulseAfter_of_ahead {s : State} {e : Nat} (h : s.atOrPast e = false) : pulseAfter s (some e) = some e :=
  if_neg (Bool.eq_false_iff.mp h)

theorem limitPulse_of_below {s : State} {e : Nat} (h : e < 2 ^ 48 * 10 ^ 9) : limitPulse s (some e) = some e := by
  rw [limitPulse_some]
  exact if_neg fun hlimit => Nat.not_lt.mpr hlimit.2 h

/-- A loss of TCLK up to the end of its tick. -/
def lossTold (n : Nat) (inp : TickIn) (s : State) : State := raise .clockLoss (servoClockLoss (lossCaughtUp n inp s))

section
variable {n : Nat} {inp : TickIn} {s : State} (hclock : s.clock = .normal)
include hclock

theorem clockLoss_eq : clockLoss n inp s = tickEnd inp (lossTold n inp s) := clockLoss_of_normal n inp hclock

omit hclock in
theorem lossTold_after : (lossCaughtUp n inp s).sameBut [.servo] (lossTold n inp s) :=
  ((servoClockLoss_evolves _).trans ((raise_evolves _ _).mono (by decide))).same

omit hclock in
theorem lossTold_sameBut : (lossAdvance n inp s).sameBut [.cad, .ser, .active, .switch, .servo] (lossTold n inp s) :=
  (((catchUpCads_evolves _).same.mono (by decide)).trans ((reevaluateSwitch_evolves _ _).same.mono (by decide))).trans
    (lossTold_after.mono (by decide))

/-- The counters, and what a step waits for, are those that the advance leaves. -/
theorem clockLoss_counters :
    (clockLoss n inp s).time = (lossAdvance n inp s).time ∧ (clockLoss n inp s).elapsed = (lossAdvance n inp s).elapsed ∧
      (clockLoss n inp s).elapsedRem = (lossAdvance n inp s).elapsedRem ∧ (clockLoss n inp s).steps = s.steps := by
  have hkept : (lossAdvance n inp s).sameBut (.servo :: .active :: .switch :: tickEndFields) (clockLoss n inp s) := by
    rw [clockLoss_eq hclock]
    exact (lossTold_sameBut.mono (by decide)).trans ((tickEnd_sameBut inp _).mono (by decide))
  have hsteps : (lossAdvance n inp s).steps = s.steps := (lossAdvance_evolves n inp s).same .steps (by decide)
  exact ⟨hkept .time (by decide), hkept .elapsed (by decide), hkept .elapsedRem (by decide),
    (hkept .steps (by decide)).trans hsteps⟩

/-- A cadence after a loss of TCLK with no switch pending. -/
theorem clockLoss_cad (hswitch : s.switch = none) (c : Fin 8) :
    (clockLoss n inp s).cad[c].st = (s.cad[c].tick.caughtUp (lossAdvance n inp s) c).st ∧
      (clockLoss n inp s).cad[c].last = s.cad[c].last ∧
      (clockLoss n inp s).cad[c].pulse =
        limitPulse (lossTold n inp s) (s.cad[c].tick.caughtUp (lossAdvance n inp s) c).pulse := by
  have hcad : (lossTold n inp s).cad = (catchUpCads (lossAdvance n inp s)).cad := by
    rw [← lossCaughtUp_of_none hswitch]
    exact lossTold_after .cad (by decide)
  rw [clockLoss_eq hclock, tickEnd_cad, hcad, catchUpCads_cad, lossAdvance_cad]
  exact ⟨rfl, CadRun.caughtUp_last, rfl⟩

/-- The flags of a loss: CLOCK_LOSS and LOCK_LOST are raised, TIME_STEPPED and HOLDOVER_EXPIRED are not. -/
theorem clockLoss_flags :
    s.flagsFrom Event.isNotice (clockLoss n inp s) ∧ (clockLoss n inp s).isPending .clockLoss = true ∧
      (s.servo.locked = true → (clockLoss n inp s).isPending .lockLost = true) := by
  rw [clockLoss_eq hclock]
  have hadvance : s.flagsFrom Event.isNotice (lossAdvance n inp s) := flagsFrom_of_groups (lossAdvance_groups n inp s)
  have hcaught : s.flagsFrom Event.isNotice (lossCaughtUp n inp s) :=
    (hadvance.trans (catchUpCads_flags _)).trans (reevaluateSwitch_flags _ _)
  have hservo : (lossCaughtUp n inp s).servo = s.servo := (lossCaughtUp_evolves n inp s).same .servo (by decide)
  have hend := tickEnd_flags inp (lossTold n inp s)
  have htold : (servoClockLoss (lossCaughtUp n inp s)).flagsFrom Event.isNotice (lossTold n inp s) :=
    raise_isNotice clockLoss_isNotice _
  have hlost : (lossTold n inp s).isPending .clockLoss = true := by
    rw [lossTold]
    exact raise_isPending_self _ _
  refine ⟨((hcaught.trans (servoClockLoss_flags _)).trans htold).trans hend, hend.1 _ hlost, fun hlocked => ?_⟩
  rw [← hservo] at hlocked
  exact hend.1 _ (htold.1 _ (servoClockLoss_raises hlocked))

/-- What a loss with no switch pending raises for a cadence (R136). -/
theorem clockLoss_raises (hswitch : s.switch = none) {c : Fin 8} {k e : Nat} (hpast : (lossAdvance n inp s).atOrPast e = true) :
    (s.cad[c].st = .running k e → (clockLoss n inp s).isPending (.realigned c) = true) ∧
      (s.cad[c].st = .armed k e → (clockLoss n inp s).isPending .oneshotMissed = true) := by
  have hkeep : (lossCaughtUp n inp s).flagsFrom Event.isNotice (clockLoss n inp s) := by
    rw [clockLoss_eq hclock]
    exact ((servoClockLoss_flags _).trans (raise_isNotice clockLoss_isNotice _)).trans (tickEnd_flags inp _)
  have hst : (lossAdvance n inp s).cad[c].st = s.cad[c].st := by
    rw [lossAdvance_cad]
    rfl
  rw [lossCaughtUp_of_none hswitch] at hkeep
  obtain ⟨hrun, harm⟩ := catchUpCads_raises (c := c) (k := k) hpast
  exact ⟨fun h => hkeep.1 _ (hrun (hst.trans h)), fun h => hkeep.1 _ (harm (hst.trans h))⟩

theorem clockLoss_exch (hd : s.departing = []) : (clockLoss n inp s).exch = s.exch := by
  have hadvance : (lossAdvance n inp s).departing = s.departing := (lossAdvance_evolves n inp s).same .departing (by decide)
  have hnone : (lossTold n inp s).departing = [] := (lossTold_sameBut .departing (by decide)).trans (hadvance.trans hd)
  have hend : (lossTold n inp s).sameBut [.cad, .ser, .pins, .view] (clockLoss n inp s) := by
    rw [clockLoss_eq hclock, tickEnd_of_none hnone]
    exact ((tickStamps_sameBut inp _).mono (by decide)).trans (tickOutputs_evolves _).same
  exact ((hend .exch (by decide)).trans (lossTold_after .exch (by decide))).trans (lossCaughtUp_exch n inp s)

end

/-- Settles O39. -/
theorem clockLossCatchesUp : Obligations.ClockLossCatchesUp := by
  refine fun n inp s => ⟨fun h => congrArg Host.Outcome.next (clockLoss_of_backup n inp h), fun hclock => ?_⟩
  obtain ⟨htime, helapsed, hrem, hsteps⟩ := clockLoss_counters (n := n) (inp := inp) hclock
  obtain ⟨hflags, hlost, hlock⟩ := clockLoss_flags (n := n) (inp := inp) hclock
  have hall := clockLoss_sameBut n inp s
  refine ⟨clockLoss n inp s, rfl, clockLoss_clock n inp hclock, ?_, ?_, clockLoss_servo hclock, hlost, hlock,
    hflags.2 _ (fun h => h.1 rfl), hflags.2 _ (fun h => h.2 rfl), hall .sources (by decide), clockLoss_exch hclock, hsteps,
    hall .servoCfg (by decide), hall .banks (by decide), fun hswitch c => ?_⟩
  · rw [htime]
    exact lossAdvance_total n inp s
  · rw [helapsed, hrem]
    exact lossAdvance_elapsedTotal n inp s
  · have hpast : ∀ {e : Nat}, e * 2 ^ 32 ≤ (clockLoss n inp s).time.total → (lossAdvance n inp s).atOrPast e = true :=
      fun {e} h => atOrPast_iff.mpr (htime ▸ h)
    have hahead : ∀ {e : Nat}, (clockLoss n inp s).time.total < e * 2 ^ 32 → (lossAdvance n inp s).atOrPast e = false :=
      fun {e} h => not_atOrPast_iff.mpr (htime ▸ h)
    have hrec : (lossAdvance n inp s).cadRec c = s.cadRec c :=
      cadRec_congr ((lossAdvance_evolves n inp s).same .banks (by decide)) ((lossAdvance_evolves n inp s).same .active (by decide)) c
    have hlater : laterThanNow (lossAdvance n inp s) = (clockLoss n inp s).time.totalNs + 1 := by rw [laterThanNow, htime]
    obtain ⟨hst, hlast, hpulse⟩ := clockLoss_cad (n := n) (inp := inp) hclock hswitch c
    have htick : s.cad[c].tick.st = s.cad[c].st := rfl
    rw [hst, hlast, hpulse]
    refine ⟨fun k e hrun => ?_, fun k e harm => ?_, fun hrest => ?_, rfl, fun e he => ?_⟩
    · rw [CadRun.caughtUp_of_running (htick.trans hrun)]
      refine ⟨fun h => ?_, fun h => ?_⟩
      · rw [if_pos (hpast h), hrec, hlater]
        exact ⟨(clockLoss_raises hclock hswitch (hpast h)).1 hrun, rfl, rfl⟩
      · rw [if_neg (Bool.eq_false_iff.mp (hahead h))]
        exact hrun
    · rw [CadRun.caughtUp_of_armed (htick.trans harm)]
      refine ⟨fun h => ?_, fun h => ?_⟩
      · rw [if_pos (hpast h)]
        exact ⟨rfl, (clockLoss_raises hclock hswitch (hpast h)).2 harm⟩
      · rw [if_neg (Bool.eq_false_iff.mp (hahead h))]
        exact harm
    · rw [CadRun.caughtUp_of_resting (x := s.cad[c].tick) (fun k e => (hrest k e).1) (fun k e => (hrest k e).2)]
      rfl
    · have hout : s.cad[c].tick.pulse = some e := he
      obtain hp | ⟨⟨k, x, hrun, hx⟩, hp⟩ := CadRun.caughtUp_pulse (s := lossAdvance n inp s) (n := c) (x := s.cad[c].tick)
      · rw [hp, hout]
        refine ⟨fun h => ?_, fun h hlow _ => ?_⟩
        · rw [pulseAfter_of_past (hpast h), limitPulse_none]
        · rw [pulseAfter_of_ahead (hahead h), limitPulse_of_below hlow]
      · rw [hp, limitPulse_none]
        exact ⟨fun _ => rfl, fun _ _ hno => absurd hx (Bool.eq_false_iff.mp (hahead (hno k x hrun)))⟩

end Sys2Proof.Machine
end

section
/-!
PROOFS. The tick of a step (R95, R96, R88, R133, R134, R167, R183).
-/

namespace Sys2Proof.Machine

/-! ### The counter value that a step gives -/

/-- A counter value made of a reading and a remainder has them. -/
theorem ofTotal_reading {x f : Nat} (hf : f < 2 ^ 24) :
    (TimeVal.ofTotal (x * 2 ^ 24 + f)).reading = x ∧ (TimeVal.ofTotal (x * 2 ^ 24 + f)).frac.toNat % 2 ^ 24 = f := by
  simp only [TimeVal.reading, TimeVal.totalNs, TimeVal.ofTotal, BitVec.toNat_ofNat]
  constructor
  · norm_cast
    omega
  · omega

theorem stepTo_result {t : TimeVal} {sec ns : Nat} :
    (StepReq.to sec ns).result t = if sec < 2 ^ 48 ∧ ns < 10 ^ 9 then some { sec := sec, ns := ns, frac := 0 } else none := rfl

/-! ### Serializers at a switch -/

/-- A serializer at a switch of banks (R173, R174). -/
def Serializer.switched (out inc : Bank) (m : Fin 2) (x : Serializer) : Serializer :=
  if out.labels[m] ≠ inc.labels[m] then x.abandon out.labels[m]
  else if x.isFresh = true ∧ out.cad[out.labels[m].cadence] ≠ inc.cad[out.labels[m].cadence] then x.abandon out.labels[m]
  else x

theorem switchSer_ser (out inc : Bank) (m : Fin 2) (s : State) (i : Fin 2) :
    (switchSer out inc m s).ser[i] = if i = m then s.ser[i].switched out inc i else s.ser[i] := by
  unfold switchSer Serializer.switched
  dsimp only
  by_cases h : i = m
  · subst h
    rw [if_pos rfl]
    split
    · rw [State.setSer_get, if_pos rfl]
    · split
      · rw [State.setSer_get, if_pos rfl]
      · rfl
  · rw [if_neg h]
    split
    · rw [State.setSer_get, if_neg h]
    · split
      · rw [State.setSer_get, if_neg h]
      · rfl

theorem bothSer_foldl_ser {g : Fin 2 → State → State} {f : Fin 2 → Serializer → Serializer}
    (hg : ∀ m (t : State) (i : Fin 2), (g m t).ser[i] = if i = m then f i t.ser[i] else t.ser[i]) (s : State) (i : Fin 2) :
    (bothSer.foldl (fun t m => g m t) s).ser[i] = f i s.ser[i] := by
  rw [bothSer, List.foldl_cons, List.foldl_cons, List.foldl_nil, hg, hg]
  fin_cases i <;> rfl

theorem makeSwitch_ser (target : Fin 4) (at_ before : Nat) (s : State) (m : Fin 2) :
    (makeSwitch target at_ before s).ser[m] = s.ser[m].switched s.bank s.banks[target] m := by
  have hcad : (allCad.foldl (fun t n => switchCad s.bank s.banks[target] (atOrAfter at_ before) n t) s).ser = s.ser :=
    (State.evolves.foldl (fun t n => switchCad_evolves _ _ _ n t) allCad s).same .ser (by decide)
  have hunits : (switchedUnits target at_ before s).ser[m] = s.ser[m].switched s.bank s.banks[target] m := by
    rw [switchedUnits, bothSer_foldl_ser (g := switchSer s.bank s.banks[target])
      (f := fun i x => x.switched s.bank s.banks[target] i) (fun m t i => switchSer_ser _ _ m t i), hcad]
  rw [makeSwitch_eq, raise_ser]
  exact hunits

theorem abandon_stepSeen {c : LabelCfg} {x : Serializer} (h : x.stepSeen = true) : (x.abandon c).stepSeen = true := by
  unfold Serializer.abandon
  split
  · exact Bool.or_eq_true_iff.mpr (.inl h)
  · exact h

theorem switched_stepSeen {out inc : Bank} {m : Fin 2} {x : Serializer} (h : x.stepSeen = true) :
    (x.switched out inc m).stepSeen = true := by
  unfold Serializer.switched
  split
  · exact abandon_stepSeen h
  · split
    · exact abandon_stepSeen h
    · exact h

theorem reevaluateSwitch_stepSeen (before : State) {s : State} {m : Fin 2} (h : s.ser[m].stepSeen = true) :
    (reevaluateSwitch before s).ser[m].stepSeen = true := by
  obtain hs | ⟨q, at_, -, hs⟩ := reevaluateSwitch_cases before s
  · rw [hs]
    exact h
  · rw [hs, makeSwitch_ser]
    exact switched_stepSeen h

/-! ### What the tick of a step hands over -/

/-- No Probe that departed before the tick of a step leaves a record, unless its latency carries its stamp past the
margin (R89). -/
theorem handOver_exch_of_boundary {d : Departure} {s : State} (hb : s.exch.boundary = some s.elapsed)
    (hd : d.latency ≤ 16777215) : (handOver d s).exch = s.exch := by
  obtain ⟨ing, mark, -, h⟩ | ⟨seq, -, h⟩ | ⟨-, h⟩ := handOver_cases d s
  · rw [h]
    exact (State.setPort_exch _ _ _).trans ((consult_evolves _ _ _ _ _ s).same .exch (by decide))
  · have hbetween : (s.elapsed + 16777216#64 - (egressStamp s d.latency).elapsed).toNat = 16777216 - d.latency := by
      simp only [egressStamp]
      bv_omega
    rw [h, probeDeparted_of_excluded hb ⟨by omega, by omega⟩]
  · rw [h]

theorem handOverAll_exch_of_boundary (l : List Departure) {s : State} (hb : s.exch.boundary = some s.elapsed)
    (hl : ∀ d ∈ l, d.latency ≤ 16777215) : (l.foldl (fun t d => handOver d t) s).exch = s.exch := by
  induction l generalizing s with
  | nil => rfl
  | cons d l ih =>
    have hd := handOver_exch_of_boundary hb (hl d List.mem_cons_self)
    have helapsed : (handOver d s).elapsed = s.elapsed := handOver_sameBut d s .elapsed (by decide)
    rw [List.foldl_cons, ih (by rw [hd, hb, helapsed]) fun x hx => hl x (List.mem_cons_of_mem d hx), hd]

theorem tickEnd_exch_of_boundary {inp : TickIn} {s : State} (hb : s.exch.boundary = some s.elapsed)
    (hl : ∀ d ∈ s.departing, d.latency ≤ 16777215) : (tickEnd inp s).exch = s.exch := by
  cases h : s.departing with
  | nil =>
    rw [tickEnd_of_none h]
    exact ((tickOutputs_evolves _).same .exch (by decide)).trans (tickStamps_sameBut inp s .exch (by decide))
  | cons d rest =>
    have hexch : (handing inp s).exch = s.exch := handing_sameBut inp s .exch (by decide)
    have helapsed : (handing inp s).elapsed = s.elapsed := handing_sameBut inp s .elapsed (by decide)
    have hall := handOverAll_exch_of_boundary (d :: rest) (s := handing inp s) (by rw [hexch, hb, helapsed]) (h ▸ hl)
    rw [tickEnd_of_departing h]
    exact (((tickOutputs_evolves _).same .exch (by decide)).trans hall).trans hexch

/-! ### The state that a step is made on -/

/-- The tick of a step up to the step itself. -/
def stepReady (inp : TickIn) (s : State) : State := { tickStart inp s with steps := [] }

theorem setSteps_sameBut (s : State) (l : List StepReq) : s.sameBut [.steps] { s with steps := l } :=
  fun f hf => by cases f <;> simp at hf <;> rfl

theorem setSteps_groups (s : State) (l : List StepReq) : State.groups { s with steps := l } = s.groups := rfl

section
variable (inp : TickIn) (s : State)

theorem stepReady_of_tickStart : (tickStart inp s).sameBut [.steps] (stepReady inp s) := setSteps_sameBut _ _

theorem stepReady_sameBut :
    s.sameBut [.time, .elapsed, .elapsedRem, .prevTime, .prevTime2, .cad, .ser, .cap, .switch, .clock, .steps]
      (stepReady inp s) :=
  ((tickStart_evolves inp s).same.mono (by decide)).trans ((stepReady_of_tickStart inp s).mono (by decide))

theorem stepReady_groups : (stepReady inp s).groups = s.groups :=
  (setSteps_groups _ _).trans (tickStart_notifier inp s).1

theorem stepReady_time : (stepReady inp s).time = s.time.advance (incrementOf s.servo.a) :=
  (stepReady_of_tickStart inp s .time (by decide)).trans (tickStart_time inp s)

theorem stepReady_cad (n : Fin 8) : (stepReady inp s).cad[n] = s.cad[n].tick := by
  have h : (stepReady inp s).cad = (tickStart inp s).cad := stepReady_of_tickStart inp s .cad (by decide)
  rw [h, tickStart_cad]

theorem stepReady_ser (m : Fin 2) : (stepReady inp s).ser[m] = s.ser[m].countTick := by
  have h : (stepReady inp s).ser = (tickStart inp s).ser := stepReady_of_tickStart inp s .ser (by decide)
  rw [h, tickStart_ser]

theorem stepReady_cap (n : Fin 4) : (stepReady inp s).cap[n] = s.cap[n].tick s.capRec[n] inp.cap[n] := by
  have h : (stepReady inp s).cap = (tickStart inp s).cap := stepReady_of_tickStart inp s .cap (by decide)
  rw [h, tickStart_cap]

theorem stepReady_switch : (stepReady inp s).switch = s.switch.map fun q => { q with dueTick := q.due } :=
  (stepReady_of_tickStart inp s .switch (by decide)).trans (tickStart_switch inp s)

end

/-- The tick of one step that was asked for. -/
theorem tickAll_of_step {inp : TickIn} {s : State} {r : StepReq} (h : s.steps = [r]) :
    tickAll inp s = tickEnd inp (takeStep r (stepReady inp s)) := by
  rw [tickAll_eq, takeSteps, (tickStart_steps inp s).trans h]
  rfl

theorem takeStep_of_none {r : StepReq} {s : State} (h : r.result s.time = none) : takeStep r s = s := by
  rw [takeStep, h]

theorem takeStep_of_some {r : StepReq} {s : State} {t : TimeVal} (h : r.result s.time = some t) :
    takeStep r s = makeStep t s := by
  rw [takeStep, h]

/-! ### One cadence at a step (R133, R134) -/

section
variable {s : State} {n : Fin 8} {x : CadRun} {k e : Nat}

theorem CadRun.stepped_of_running (hst : x.st = .running k e) :
    x.stepped s n =
      { x with
        st := .running ((s.cadRec n).firstAt (laterThanNow s)) ((s.cadRec n).edgeTime ((s.cadRec n).firstAt (laterThanNow s)))
        pulse := none
        endedNow := false } := by
  rw [CadRun.stepped, hst]

theorem CadRun.stepped_of_armed (hst : x.st = .armed k e) :
    x.stepped s n = if s.atOrPast e then { x with st := .done, pulse := none } else x := by
  rw [CadRun.stepped, hst]

theorem CadRun.stepped_of_done (hst : x.st = .done) : x.stepped s n = { x with pulse := none } := by
  rw [CadRun.stepped, hst]

theorem CadRun.stepped_of_resting (hst : x.st = .off ∨ x.st = .waiting ∨ x.st = .idle) : x.stepped s n = x := by
  rcases hst with h | h | h <;> rw [CadRun.stepped, h]

end

/-! ### A step that is made -/

/-- The step as its notices leave it, before a waiting switch is looked at. -/
def stepNotified (t : TimeVal) (s : State) : State := stepMarked (stepCads (stepTold t s))

section
variable (t : TimeVal) (s : State)

theorem makeStep_eq_notified : makeStep t s = reevaluateSwitch (stepTold t s) (stepNotified t s) := rfl

theorem stepNotified_evolves :
    s.evolves [.time, .prevTime, .prevTime2, .exch, .cad, .cap, .ser] (stepNotified t s) :=
  (((stepTold_evolves t s).mono (by decide)).trans ((stepCads_evolves _).mono (by decide))).trans
    ((stepMarked_evolves _).mono (by decide))

theorem stepMarked_groups : (stepMarked s).groups = s.groups := rfl

theorem makeStep_flags : (stepCads (stepTold t s)).flagsFrom Event.isNotice (makeStep t s) := by
  rw [makeStep_eq]
  exact (flagsFrom_of_groups (stepMarked_groups _)).trans (reevaluateSwitch_flags _ _)

theorem exchangeStep_groups : (exchangeStep s).groups = s.groups := rfl

theorem stepTold_raises : (stepTold t s).isPending .timeStepped = true := by
  rw [stepTold]
  exact ((samePending_of_groups (exchangeStep_groups _)).isPending _).trans (raise_isPending_self _ _)

theorem setTime_exch (u : TimeVal) (p p2 : Nat) :
    State.exch { s with time := u, prevTime := p, prevTime2 := p2 } = s.exch ∧
      State.elapsed { s with time := u, prevTime := p, prevTime2 := p2 } = s.elapsed := ⟨rfl, rfl⟩

theorem exchangeStep_exch :
    (exchangeStep s).exch = { s.exch with slot := none, mark := none, probes := [], boundary := some s.elapsed } := rfl

theorem stepTold_exch :
    (stepTold t s).exch = { s.exch with slot := none, mark := none, probes := [], boundary := some s.elapsed } := by
  rw [stepTold, exchangeStep_exch, raise_exch, raise_elapsed, (setTime_exch s t _ _).1, (setTime_exch s t _ _).2]

theorem makeStep_exch :
    (makeStep t s).exch = { s.exch with slot := none, mark := none, probes := [], boundary := some s.elapsed } := by
  rw [← stepTold_exch t s, makeStep_eq]
  exact ((reevaluateSwitch_evolves _ _).same .exch (by decide)).trans
    (((stepMarked_evolves _).same .exch (by decide)).trans ((stepCads_evolves _).same .exch (by decide)))

theorem stepMarked_ser (m : Fin 2) : (stepMarked s).ser[m].stepSeen = true := by
  fin_cases m <;> rfl

theorem makeStep_stepSeen (m : Fin 2) : (makeStep t s).ser[m].stepSeen = true := by
  rw [makeStep_eq]
  exact reevaluateSwitch_stepSeen _ (stepMarked_ser _ m)

theorem stepMarked_cap (n : Fin 4) : (stepMarked s).cap[n] = s.cap[n].stepNotice := mapCap_get _ _ n

theorem makeStep_cap (n : Fin 4) : (makeStep t s).cap[n] = s.cap[n].stepNotice := by
  have hswitch : (makeStep t s).cap = (stepNotified t s).cap := by
    rw [makeStep_eq_notified]
    exact (reevaluateSwitch_evolves _ _).same .cap (by decide)
  have hcads : (stepCads (stepTold t s)).cap = s.cap :=
    ((stepCads_evolves _).same .cap (by decide)).trans ((stepTold_evolves t s).same .cap (by decide))
  rw [hswitch, stepNotified, stepMarked_cap, hcads]

variable {s}

theorem makeStep_of_no_switch (h : s.switch = none) : makeStep t s = stepNotified t s := by
  rw [makeStep_eq_notified]
  refine reevaluateSwitch_of_none ?_
  exact ((stepNotified_evolves t s).same .switch (by decide)).trans h

theorem makeStep_cad (h : s.switch = none) (n : Fin 8) : (makeStep t s).cad[n] = s.cad[n].stepped (stepTold t s) n := by
  have hcads : (stepNotified t s).cad = (stepCads (stepTold t s)).cad := (stepMarked_evolves _).same .cad (by decide)
  have htold : (stepTold t s).cad = s.cad := (stepTold_evolves t s).same .cad (by decide)
  rw [makeStep_of_no_switch t h, hcads, stepCads_cad, htold]

end

/-! ### The tick of a step (R95) -/

theorem CapStamp.mark_beforeStep (x : CapStamp) : x.mark.beforeStep = true := rfl

theorem stepNotice_marks (x : CapLine) :
    (∀ y ∈ x.stepNotice.ring, y.beforeStep = true) ∧
      ∀ a c, x.stepNotice.qual = .live a (some c) → c.stamp.beforeStep = true := by
  refine ⟨fun y hy => ?_, fun a c hc => ?_⟩
  · obtain ⟨z, -, rfl⟩ := List.mem_map.mp hy
    exact z.mark_beforeStep
  · have hq : x.qual.mark = .live a (some c) := hc
    unfold Qualifier.mark at hq
    split at hq
    · obtain ⟨-, hq⟩ := Qualifier.live.inj hq
      rw [← Option.some.inj hq]
      rfl
    · rename_i hno
      exact absurd hq (hno a c)

theorem CapLine.tick_ring (r : CapRec) (level : Bool) (x : CapLine) : (x.tick r level).ring = x.ring := by
  unfold CapLine.tick
  split <;> rfl

section
variable {inp : TickIn} {s : State} {r : StepReq} (hs : s.steps = [r])
include hs

omit hs in
theorem stepTick_counters (h : s.steps ≠ []) : exec (.stepTick inp) s = .next (tickAll inp s) :=
  congrArg Host.Outcome.next (if_neg h)

theorem stepTick_elapsed :
    (tickAll inp s).elapsed = (stepReady inp s).elapsed ∧ (tickAll inp s).elapsed = (tickStart inp s).elapsed ∧
      (tickAll inp s).elapsedRem = (tickStart inp s).elapsedRem ∧ (tickAll inp s).steps = [] := by
  have hstep : (stepReady inp s).sameBut (stepFields ++ tickEndFields) (tickAll inp s) := by
    rw [tickAll_of_step hs]
    exact ((takeStep_evolves r _).same.mono (by decide)).trans ((tickEnd_sameBut inp _).mono (by decide))
  have hready := stepReady_of_tickStart inp s
  have helapsed : (tickAll inp s).elapsed = (stepReady inp s).elapsed := hstep .elapsed (by decide)
  exact ⟨helapsed, helapsed.trans (hready .elapsed (by decide)),
    (hstep .elapsedRem (by decide)).trans (hready .elapsedRem (by decide)), hstep .steps (by decide)⟩

/-- Out of range the tick is a tick without a step. -/
theorem tickAll_of_untold (h : r.result (s.time.advance (incrementOf s.servo.a)) = none) :
    tickAll inp s = tickEnd inp (stepReady inp s) := by
  rw [tickAll_of_step hs, takeStep_of_none (by rw [stepReady_time, h])]

theorem tickAll_of_told {t : TimeVal} (h : r.result (s.time.advance (incrementOf s.servo.a)) = some t) :
    tickAll inp s = tickEnd inp (makeStep t (stepReady inp s)) := by
  rw [tickAll_of_step hs, takeStep_of_some (by rw [stepReady_time, h])]

end

theorem makeStep_time_eq (t : TimeVal) (s : State) : (makeStep t s).time = t := by
  have htold : (stepTold t s).time = t := by
    rw [stepTold, exchangeStep, raise_time]
  have hrest : (stepTold t s).sameBut [.cad, .cap, .ser, .active, .switch] (makeStep t s) := by
    rw [makeStep_eq]
    exact (((stepCads_evolves _).same.mono (by decide)).trans ((stepMarked_evolves _).same.mono (by decide))).trans
      ((reevaluateSwitch_evolves _ _).same.mono (by decide))
  exact (hrest .time (by decide)).trans htold

/-- What a step that is made leaves of a cadence and raises for it, with no switch pending. -/
theorem tickEnd_makeStep_cad {inp : TickIn} {t : TimeVal} {w : State} (h : w.switch = none) (n : Fin 8) :
    let u := tickEnd inp (makeStep t w)
    let x := w.cad[n].stepped (stepTold t w) n
    u.cad[n].st = x.st ∧ u.cad[n].last = x.last ∧ (x.pulse = none → u.cad[n].pulse = none) := by
  dsimp only
  rw [tickEnd_cad, makeStep_cad t h]
  refine ⟨rfl, rfl, fun hp => ?_⟩
  show limitPulse _ _ = none
  rw [hp, limitPulse_none]

/-- Settles O35. -/
theorem stepTickMovesCounterAndTells : Obligations.StepTickMovesCounterAndTells := by
  intro inp s r hs adv
  have hall : s.sameBut tickAllFields (tickAll inp s) := tickAll_sameBut inp s
  obtain ⟨helapsed, helapsed', hrem, hsteps⟩ := stepTick_elapsed (inp := inp) hs
  have hready := stepReady_sameBut inp s
  have hbanks : (stepReady inp s).banks = s.banks := hready .banks (by decide)
  have hactive : (stepReady inp s).active = s.active := hready .active (by decide)
  have hdeparting : (stepReady inp s).departing = s.departing := hready .departing (by decide)
  refine ⟨congrArg Host.Outcome.next (if_pos rfl), tickAll inp s, stepTick_counters (by rw [hs]; nofun), hsteps,
    hall .servo (by decide), hall .sources (by decide), hall .servoCfg (by decide), hall .banks (by decide),
    hall .requests (by decide), ?_, ?_⟩
  · rw [helapsed', hrem]
    exact tickStart_elapsedTotal inp s
  intro told untold
  have htold : ∀ t, r.result adv = some t → (tickAll inp s).time = t ∧ told := by
    intro t ht
    have htick := tickAll_of_told (inp := inp) hs ht
    have htime : (tickAll inp s).time = t := by rw [htick, tickEnd_time, makeStep_time_eq]
    have hflags : (stepCads (stepTold t (stepReady inp s))).flagsFrom Event.isNotice (tickAll inp s) := by
      rw [htick]
      exact (makeStep_flags t _).trans (tickEnd_flags inp _)
    have hexch : (makeStep t (stepReady inp s)).exch =
        { s.exch with slot := none, mark := none, probes := [], boundary := some (tickAll inp s).elapsed } := by
      have h : (stepReady inp s).exch = s.exch := hready .exch (by decide)
      rw [makeStep_exch, h, helapsed]
    have hmade : (stepReady inp s).evolves stepFields (makeStep t (stepReady inp s)) := makeStep_evolves t _
    refine ⟨htime, hflags.1 _ ((stepCads_flags _).1 _ (stepTold_raises t _)), fun hd => ?_, fun m => ?_, fun n => ?_,
      fun hswitch => ⟨?_, fun n => ?_⟩⟩
    · rw [← hexch, htick]
      refine tickEnd_exch_of_boundary ?_ ?_
      · have h : (makeStep t (stepReady inp s)).elapsed = (stepReady inp s).elapsed := hmade.same .elapsed (by decide)
        rw [makeStep_exch, h]
      · have h : (makeStep t (stepReady inp s)).departing = (stepReady inp s).departing := hmade.same .departing (by decide)
        rw [h, hdeparting]
        exact hd
    · rw [htick, tickEnd_stepSeen, makeStep_stepSeen]
    · have h : (tickAll inp s).cap = (makeStep t (stepReady inp s)).cap := by
        rw [htick]
        exact tickEnd_sameBut inp _ .cap (by decide)
      rw [h, makeStep_cap]
      exact stepNotice_marks _
    · have hnone : (stepReady inp s).switch = none := by
        rw [stepReady_switch, hswitch]
        rfl
      have h : (makeStep t (stepReady inp s)).active = (stepReady inp s).active := by
        rw [makeStep_of_no_switch t hnone]
        exact (stepNotified_evolves t _).same .active (by decide)
      rw [htick]
      exact ((tickEnd_sameBut inp _ .active (by decide)).trans h).trans hactive
    · have hnone : (stepReady inp s).switch = none := by
        rw [stepReady_switch, hswitch]
        rfl
      obtain ⟨hst, hlast, hpulse⟩ := tickEnd_makeStep_cad (inp := inp) (t := t) hnone n
      rw [← htick, stepReady_cad] at hst hlast hpulse
      have hstepTime : (stepTold t (stepReady inp s)).time = (tickAll inp s).time := by
        rw [htime, stepTold, exchangeStep, raise_time]
      have hrec : (stepTold t (stepReady inp s)).cadRec n = s.cadRec n :=
        cadRec_congr (((stepTold_evolves t _).same .banks (by decide)).trans hbanks)
          (((stepTold_evolves t _).same .active (by decide)).trans hactive) n
      have hlater : laterThanNow (stepTold t (stepReady inp s)) = (tickAll inp s).time.totalNs + 1 := by
        rw [laterThanNow, hstepTime]
      have hcad : (stepTold t (stepReady inp s)).cad[n].st = s.cad[n].st := by
        have h : (stepTold t (stepReady inp s)).cad = (stepReady inp s).cad := (stepTold_evolves t _).same .cad (by decide)
        rw [h, stepReady_cad]
        rfl
      have htick' : s.cad[n].tick.st = s.cad[n].st := rfl
      refine ⟨fun k e hrun => ?_, fun k e harm => ⟨fun h => ?_, fun h => ?_⟩, fun hrest => ?_, fun hdone => ?_⟩
      · rw [CadRun.stepped_of_running (htick'.trans hrun)] at hst hlast hpulse
        refine ⟨hflags.1 _ (stepCads_raises.1 (hcad.trans hrun)), hpulse rfl, hlast, ?_⟩
        rw [hst, hrec, hlater]
      · have hp : (stepTold t (stepReady inp s)).atOrPast e = true := atOrPast_iff.mpr (hstepTime ▸ h)
        rw [CadRun.stepped_of_armed (htick'.trans harm), if_pos hp] at hst
        exact ⟨hst, hflags.1 _ (stepCads_raises.2 (hcad.trans harm) hp)⟩
      · have hp : (stepTold t (stepReady inp s)).atOrPast e = false := not_atOrPast_iff.mpr (hstepTime ▸ h)
        rw [CadRun.stepped_of_armed (htick'.trans harm), if_neg (Bool.eq_false_iff.mp hp)] at hst
        exact hst.trans harm
      · rw [CadRun.stepped_of_resting (x := s.cad[n].tick) hrest] at hst
        exact hst
      · rw [CadRun.stepped_of_done (htick'.trans hdone)] at hst hpulse
        exact ⟨hst.trans hdone, hpulse rfl⟩
  have huntold : r.result adv = none → untold := by
    intro hnone
    have htick := tickAll_of_untold (inp := inp) hs hnone
    have hend := tickEnd_sameBut inp (stepReady inp s)
    rw [← htick] at hend
    have hcap : (tickAll inp s).cap = (stepReady inp s).cap := hend .cap (by decide)
    refine ⟨(hend .time (by decide)).trans (stepReady_time inp s), (hend .active (by decide)).trans hactive, ?_, fun n => ?_,
      fun m => ?_, fun n => ?_, fun hd => ?_⟩
    · have h : (tickAll inp s).switch = (stepReady inp s).switch := hend .switch (by decide)
      rw [h, stepReady_switch, Option.isSome_map]
    · rw [htick, tickEnd_cad, stepReady_cad]
      rfl
    · rw [htick, tickEnd_stepSeen, stepReady_ser]
      rfl
    · rw [hcap, stepReady_cap, CapLine.tick_ring]
    · have hout : tickAll inp s = tickOutputs (tickStamps inp (stepReady inp s)) := by
        rw [htick, tickEnd_of_none (hdeparting.trans hd)]
      rw [hout]
      exact ⟨((tickOutputs_evolves _).same .exch (by decide)).trans
          ((tickStamps_sameBut inp _ .exch (by decide)).trans (hready .exch (by decide))),
        (tickOutputs_groups _).trans ((tickStamps_notifier inp _).1.trans (stepReady_groups inp s))⟩
  refine ⟨fun amount hr => ⟨fun hlow hhigh => ?_, fun hout => ?_⟩, fun sec ns hr => ⟨fun hsec hns => ?_, fun hout => ?_⟩⟩
  · subst hr
    obtain ⟨htime, ht⟩ := htold _ (stepBy_result_of_inside limitNs_reading ⟨hlow, hhigh⟩)
    obtain ⟨hreading, hfrac⟩ := ofTotal_reading (x := (adv.reading + amount).toNat) (f := adv.frac.toNat % 2 ^ 24)
      (Nat.mod_lt _ (by decide))
    rw [htime]
    exact ⟨hreading.trans (Int.toNat_of_nonneg hlow), hfrac, ht⟩
  · subst hr
    refine huntold (stepBy_result_of_outside limitNs_reading fun hin => ?_)
    rcases hout with h | h
    · exact Int.not_lt.mpr hin.1 h
    · exact Int.not_le.mpr hin.2 h
  · subst hr
    exact htold _ (stepTo_result.trans (if_pos ⟨hsec, hns⟩))
  · subst hr
    refine huntold (stepTo_result.trans (if_neg fun hin => ?_))
    rcases hout with h | h
    · exact Nat.not_le.mpr hin.1 h
    · exact Nat.not_le.mpr hin.2 h

end Sys2Proof.Machine
end

section
/-!
PROOFS. The edges of a record (R123 to R128).
-/

namespace Sys2Proof.Machine

/-- Edges lie at most floor(P) + 1 apart. -/
theorem edgeTime_succ_le {r : CadRec} (hnum : 1 ≤ r.num) (k : Nat) : r.edgeTime (k + 1) ≤ r.edgeTime k + r.floorP + 1 := by
  unfold CadRec.edgeTime CadRec.floorP
  rw [Nat.succ_mul, Nat.add_div hnum]
  split <;> omega

theorem endTime_eq (r : CadRec) (k : Nat) :
    r.endTime k = if r.shape = .pulse then r.edgeTime k + r.width else r.fallTime k := by
  unfold CadRec.endTime
  cases r.shape <;> rfl

section
variable {r : CadRec} (hnum : 1 ≤ r.num) (hrate : r.num ≤ r.den * 10 ^ 7)
include hnum hrate

/-- A period lasts 100 ns at least (R120). -/
theorem hundred_le_floorP : 100 ≤ r.floorP := by
  refine (Nat.le_div_iff_mul_le hnum).mpr ?_
  unfold CadRec.span
  omega

/-- A SQUARE output is active for half a period, less a rounding. -/
theorem edgeTime_le_fallTime (k : Nat) : r.edgeTime k + 49 ≤ r.fallTime k := by
  unfold CadRec.edgeTime CadRec.fallTime
  have hlow : k * r.span / r.num * r.num ≤ k * r.span := Nat.div_mul_le_self _ _
  have hspan : 100 * r.num ≤ r.span := by
    unfold CadRec.span
    omega
  have hhalf : k * r.span / r.num + 49 ≤ (2 * k + 1) * r.span / (2 * r.num) := by
    refine (Nat.le_div_iff_mul_le (by omega)).mpr ?_
    calc (k * r.span / r.num + 49) * (2 * r.num) = 2 * (k * r.span / r.num * r.num) + 98 * r.num := by ring
      _ ≤ 2 * (k * r.span) + r.span := by omega
      _ = (2 * k + 1) * r.span := by ring
  omega

theorem fallTime_le_edgeTime_succ (k : Nat) : r.fallTime k + 49 ≤ r.edgeTime (k + 1) := by
  unfold CadRec.edgeTime CadRec.fallTime
  have hlow : (2 * k + 1) * r.span / (2 * r.num) * (2 * r.num) ≤ (2 * k + 1) * r.span := Nat.div_mul_le_self _ _
  have hspan : 100 * r.num ≤ r.span := by
    unfold CadRec.span
    omega
  have hhalf : (2 * k + 1) * r.span / (2 * r.num) + 49 ≤ (k + 1) * r.span / r.num := by
    refine (Nat.le_div_iff_mul_le hnum).mpr ?_
    have htwice : ((2 * k + 1) * r.span / (2 * r.num) + 49) * r.num * 2 ≤ (k + 1) * r.span * 2 :=
      calc ((2 * k + 1) * r.span / (2 * r.num) + 49) * r.num * 2
          = (2 * k + 1) * r.span / (2 * r.num) * (2 * r.num) + 98 * r.num := by ring
        _ ≤ (2 * k + 1) * r.span + r.span := by omega
        _ = (k + 1) * r.span * 2 := by ring
    omega
  omega

end

/-- Settles O41. -/
theorem edgeSeriesAndFirstEdge : Obligations.EdgeSeriesAndFirstEdge := by
  refine ⟨fun r k hr => ?_, fun r t k hnum hden => firstAt_le_iff hnum hden t k⟩
  obtain ⟨⟨hnum, -⟩, -, hrate, -, -, hwidth, -⟩ := hr
  have hfloor := hundred_le_floorP hnum hrate
  have hsucc := edgeTime_succ_ge r k
  refine ⟨rfl, ?_, endTime_eq r k, rfl, hsucc, edgeTime_succ_le hnum k, by omega, edgeTime_le_fallTime hnum hrate k,
    fallTime_le_edgeTime_succ hnum hrate k⟩
  rw [CadRec.fallTime, CadRec.span, Nat.mul_assoc]

end Sys2Proof.Machine
end

section
/-!
PROOFS. Edges told to the serializers, CADENCE_EDGE, PULSE_END and ONESHOT_FIRE (R126 to R128, R132, R165 to R170).
-/

namespace Sys2Proof.Machine

/-! ### What a composed word is taken from -/

theorem civilInForce_congr {s t : State} (hsources : t.sources = s.sources) (hcivil : t.civil = s.civil) :
    t.civilInForce = s.civilInForce := by
  unfold State.civilInForce State.selected
  rw [hsources, hcivil]

theorem composeBits_congr {s t : State} (hsources : t.sources = s.sources) (hcivil : t.civil = s.civil)
    (hservo : t.servo = s.servo) (hclock : t.clock = s.clock) : composeBits t = composeBits s := by
  funext n k e seen
  rw [composeBits, composeBits, civilInForce_congr hsources hcivil, hservo, hclock]

/-- What a word and its flag are taken from, of what an operation on cadences and serializers leaves. -/
theorem told_context {F : List Field} {s t : State} (h : s.sameBut F t)
    (hF : ∀ f ∈ [Field.sources, .civil, .servo, .clock, .banks, .active], f ∉ F) :
    composeBits t = composeBits s ∧ ∀ m, t.label m = s.label m :=
  ⟨composeBits_congr (h .sources (hF _ (by decide))) (h .civil (hF _ (by decide))) (h .servo (hF _ (by decide)))
      (h .clock (hF _ (by decide))),
    label_congr (h .banks (hF _ (by decide))) (h .active (hF _ (by decide)))⟩

/-! ### A serializer told of an edge (R165, R167, R170) -/

theorem Serializer.busy_iff {c : LabelCfg} {x : Serializer} :
    x.busy c = true ↔ ∃ w, x.word = some w ∧ w.count < c.delay + 96 * c.period := by
  unfold Serializer.busy
  cases x.word with
  | none => simp
  | some w =>
    simp only [Option.some.injEq, exists_eq_left', LabelWord.isDone, wordTicks, Bool.not_eq_true']
    exact decide_eq_false_iff_not.trans Nat.not_le

/-- A serializer that an edge of cadence `n` with index `k` is told to, `bits` being the word composed for it. -/
def Serializer.told (c : LabelCfg) (n : Fin 8) (k : Nat) (bits : BitVec 96) (x : Serializer) : Serializer :=
  if c.enable = false ∨ c.cadence ≠ n then x
  else if x.busy c then x
  else { x with word := some { bits := bits, index := k, stepSeen := x.stepSeen, count := 0 }, stepSeen := false }

/-- A serializer that is told of an edge while SHIFTING. -/
def Serializer.overrun (c : LabelCfg) (n : Fin 8) (x : Serializer) : Bool :=
  decide (c.enable = true ∧ c.cadence = n) && x.busy c

theorem raise_ser_get (e : Event) (s : State) (i : Fin 2) : (raise e s).ser[i] = s.ser[i] := by
  simp only [raise_ser]

theorem tellSerializer_ser (n : Fin 8) (k e : Nat) (m : Fin 2) (s : State) (i : Fin 2) :
    (tellSerializer n k e m s).ser[i] =
      if i = m then s.ser[i].told (s.label i) n k (composeBits s n k e s.ser[i].stepSeen) else s.ser[i] := by
  unfold tellSerializer Serializer.told
  dsimp only
  by_cases h : i = m
  · subst h
    rw [if_pos rfl]
    split
    · rfl
    · split
      · exact raise_ser_get _ s i
      · rw [State.setSer_get, if_pos rfl]
  · rw [if_neg h]
    split
    · rfl
    · split
      · exact raise_ser_get _ s i
      · rw [State.setSer_get, if_neg h]

theorem tellSerializer_overrun (n : Fin 8) (k e : Nat) (m : Fin 2) (s : State) (i : Fin 2) :
    (tellSerializer n k e m s).isPending (.labelOverrun i) =
      if i = m then s.ser[i].overrun (s.label i) n || s.isPending (.labelOverrun i) else s.isPending (.labelOverrun i) := by
  unfold tellSerializer Serializer.overrun
  dsimp only
  by_cases h : i = m
  · subst h
    rw [if_pos rfl]
    by_cases hoff : (s.label i).enable = false ∨ (s.label i).cadence ≠ n
    · have hno : ¬ ((s.label i).enable = true ∧ (s.label i).cadence = n) := fun ⟨he, hc⟩ =>
        hoff.elim (fun h => Bool.false_ne_true (h.symm.trans he)) fun h => h hc
      rw [if_pos hoff, decide_eq_false hno, Bool.false_and, Bool.false_or]
    · have hyes : (s.label i).enable = true ∧ (s.label i).cadence = n := by
        simpa only [not_or, Bool.not_eq_false, not_not] using hoff
      rw [if_neg hoff, decide_eq_true hyes, Bool.true_and]
      cases s.ser[i].busy (s.label i) with
      | true => exact (raise_isPending_self _ _).trans (Bool.true_or _).symm
      | false => exact (Bool.false_or _).symm
  · have hother : ¬ (Event.labelOverrun m).orDrop (.labelOverrun i) := by
      rintro (heq | ⟨p, heq⟩)
      · exact h (Event.labelOverrun.inj heq)
      · cases heq
    rw [if_neg h]
    split
    · rfl
    · split
      · exact (raise_flags _ s).2 _ hother
      · exact (samePending_of_groups (State.setSer_groups s m _)).isPending _

/-- What an edge of cadence `n` leaves of the serializers. -/
theorem tellEdge_ser (n : Fin 8) (k e : Nat) (s : State) (m : Fin 2) :
    (tellEdge n k e s).ser[m] = s.ser[m].told (s.label m) n k (composeBits s n k e s.ser[m].stepSeen) := by
  obtain ⟨hbits, hlabel⟩ := told_context (tellSerializer_evolves n k e 0 s).same (by decide)
  rw [tellEdge, bothSer, List.foldl_cons, List.foldl_cons, List.foldl_nil, tellSerializer_ser, hbits, hlabel,
    tellSerializer_ser]
  fin_cases m <;> rfl

theorem tellEdge_overrun (n : Fin 8) (k e : Nat) (s : State) (m : Fin 2) :
    (tellEdge n k e s).isPending (.labelOverrun m) = (s.ser[m].overrun (s.label m) n || s.isPending (.labelOverrun m)) := by
  obtain ⟨-, hlabel⟩ := told_context (tellSerializer_evolves n k e 0 s).same (by decide)
  rw [tellEdge, bothSer, List.foldl_cons, List.foldl_cons, List.foldl_nil, tellSerializer_overrun, hlabel,
    tellSerializer_overrun, tellSerializer_ser]
  fin_cases m <;> rfl

/-- What telling an edge leaves, in the words of the obligations. -/
theorem serializersTold_of {s t : State} {n : Fin 8} {k e : Nat}
    (hser : ∀ m : Fin 2, t.ser[m].word = (s.ser[m].told (s.label m) n k (composeBits s n k e s.ser[m].stepSeen)).word ∧
      t.ser[m].stepSeen = (s.ser[m].told (s.label m) n k (composeBits s n k e s.ser[m].stepSeen)).stepSeen)
    (hflag : ∀ m : Fin 2,
      t.isPending (.labelOverrun m) = (s.ser[m].overrun (s.label m) n || s.isPending (.labelOverrun m))) :
    s.serializersTold t n k e := by
  intro m
  dsimp only
  obtain ⟨hword, hseen⟩ := hser m
  rw [hword, hseen, hflag]
  refine ⟨fun hoff => ?_, fun hen hcad => ⟨fun hidle => ?_, fun w hw hshift => ?_⟩⟩
  · have hno : ¬ ((s.label m).enable = true ∧ (s.label m).cadence = n) := fun ⟨he, hc⟩ =>
      hoff.elim (fun h => Bool.false_ne_true (h.symm.trans he)) fun h => h hc
    rw [Serializer.told, if_pos hoff, Serializer.overrun, decide_eq_false hno]
    exact ⟨⟨rfl, rfl⟩, rfl⟩
  · have hon : ¬ ((s.label m).enable = false ∨ (s.label m).cadence ≠ n) := by
      rw [hen, hcad]
      simp
    have hbusy : s.ser[m].busy (s.label m) = false := by
      rw [Bool.eq_false_iff, ne_eq, Serializer.busy_iff]
      exact fun ⟨w, hw, hlt⟩ => Nat.not_lt.mpr (hidle w hw) hlt
    rw [Serializer.told, if_neg hon, Serializer.overrun, hbusy, if_neg Bool.false_ne_true, Bool.and_false, Bool.false_or]
    exact ⟨rfl, rfl, rfl⟩
  · have hon : ¬ ((s.label m).enable = false ∨ (s.label m).cadence ≠ n) := by
      rw [hen, hcad]
      simp
    have hbusy : s.ser[m].busy (s.label m) = true := Serializer.busy_iff.mpr ⟨w, hw, hshift⟩
    rw [Serializer.told, if_neg hon, Serializer.overrun, hbusy, if_pos rfl, decide_eq_true ⟨hen, hcad⟩]
    exact ⟨⟨rfl, rfl⟩, rfl⟩

/-! ### An edge that is produced (R126, R132) -/

/-- What producing an edge leaves of the serializers and of their flags. -/
theorem produceEdge_told (n : Fin 8) (k e : Nat) (next : CadState) (s : State) (m : Fin 2) :
    (produceEdge n k e next s).ser[m] = s.ser[m].told (s.label m) n k (composeBits s n k e s.ser[m].stepSeen) ∧
      (produceEdge n k e next s).isPending (.labelOverrun m) =
        (s.ser[m].overrun (s.label m) n || s.isPending (.labelOverrun m)) := by
  have hset := fun x => told_context (s.setCad_evolves n x).same (by decide)
  have hser : ∀ x, (s.setCad n x).ser = s.ser := fun x => State.setCad_ser s n x
  have hpend : ∀ x f, (s.setCad n x).isPending f = s.isPending f := fun x f =>
    (samePending_of_groups (State.setCad_groups s n x)).isPending f
  rw [produceEdge, tellEdge_ser, tellEdge_overrun, hpend, (hset _).1, (hset _).2, hser]
  exact ⟨rfl, rfl⟩

theorem produceEdge_cad_eq (n : Fin 8) (k e : Nat) (next : CadState) (s : State) :
    (produceEdge n k e next s).cad =
      s.cad.set n { st := next, pulse := pulseUntil s ((s.cadRec n).endTime k), last := some (k, e), endedNow := false } := by
  rw [produceEdge, tellEdge_cad]
  rfl

theorem pulseUntil_of_below {s : State} {e : Nat} (h : e < 2 ^ 48 * 10 ^ 9) : pulseUntil s e = some e := by
  unfold pulseUntil
  refine if_neg fun hlimit => Nat.not_lt.mpr ?_ h
  have hle := hlimit.2
  rw [limitNs] at hle
  exact hle

theorem tellSwitch_of_unbound {n : Fin 8} {t before : Nat} {s : State} (h : ∀ q ∈ s.switch, q.trigger ≠ .atEdge n) :
    tellSwitch n t before s = s := by
  obtain hs | ⟨q, hq, htr, -⟩ := tellSwitch_cases n t before s
  · exact hs
  · exact absurd htr (h q hq)

theorem endEvent_pins_of_none {s t : State} (h : t.view = none) : (endEvent s t).pins = t.pins := by
  have hview : State.view { t with view := t.view.map (TickView.follow s t) } = none := by rw [h]; rfl
  rw [endEvent, settleTick_of_none _ hview]

theorem endEvent_isPending (s t : State) (f : Event) : (endEvent s t).isPending f = t.isPending f :=
  (samePending_of_groups (endEvent_groups s t)).isPending f

/-! ### CADENCE_EDGE and PULSE_END -/

theorem cadenceEdge_of_held {n : Fin 8} {s : State}
    (h : ∀ k e, s.cad[n].st = .running k e →
      s.time.total < e * 2 ^ 32 ∨ s.cad[n].pulse ≠ none ∨ s.cad[n].endedNow = true) : cadenceEdge n s = s := by
  unfold cadenceEdge
  dsimp only
  split
  · rename_i k e hst
    refine if_neg fun ⟨hpast, hpulse, hended⟩ => ?_
    rcases h k e hst with hahead | hactive | hmark
    · exact Nat.not_lt.mpr (atOrPast_iff.mp hpast) hahead
    · exact hactive hpulse
    · exact Bool.false_ne_true (hended.symm.trans hmark)
  · rfl

theorem cadenceEdge_of_reached {n : Fin 8} {s : State} {k e : Nat} (hst : s.cad[n].st = .running k e)
    (hpast : s.atOrPast e = true) (hpulse : s.cad[n].pulse = none) (hended : s.cad[n].endedNow = false) :
    cadenceEdge n s =
      endEvent s
        (tellSwitch n e (valueBefore s e)
          (produceEdge n k e (.running (k + 1) ((s.cadRec n).edgeTime (k + 1))) s)) := by
  simp only [cadenceEdge, hst]
  exact if_pos ⟨hpast, hpulse, hended⟩

theorem pulseEnd_of_running {n : Fin 8} {s : State} (h : ∀ e, s.cad[n].pulse = some e → s.time.total < e * 2 ^ 32) :
    pulseEnd n s = s := by
  unfold pulseEnd
  split
  · rename_i e he
    refine if_neg fun hpast => ?_
    exact Nat.not_lt.mpr (atOrPast_iff.mp hpast) (h e he)
  · rfl

theorem pulseEnd_of_reached {n : Fin 8} {s : State} {e : Nat} (he : s.cad[n].pulse = some e) (hpast : s.atOrPast e = true) :
    pulseEnd n s = endEvent s (s.setCad n { s.cad[n] with pulse := none, endedNow := true }) := by
  simp only [pulseEnd, he]
  exact if_pos hpast

/-- What an edge that no switch waits for leaves, once the outputs have been brought up to date. -/
theorem produced_told (n : Fin 8) (k e : Nat) (next : CadState) (s : State) :
    s.serializersTold (endEvent s (produceEdge n k e next s)) n k e :=
  serializersTold_of
    (fun m => by rw [endEvent_word, endEvent_stepSeen, (produceEdge_told n k e next s m).1]; exact ⟨rfl, rfl⟩)
    fun m => by rw [endEvent_isPending, (produceEdge_told n k e next s m).2]

/-- Settles O42. -/
theorem cadenceEdgeIsProduced : Obligations.CadenceEdgeIsProduced := by
  refine ⟨fun n s h => congrArg Host.Outcome.next (cadenceEdge_of_held h),
    fun n s k e hst hpast hpulse hended hno hend => ?_,
    fun n s h => congrArg Host.Outcome.next (pulseEnd_of_running h),
    fun n s e he hpast => congrArg Host.Outcome.next (pulseEnd_of_reached he (atOrPast_iff.mpr hpast))⟩
  intro r
  have hproduced := produceEdge_evolves n k e (.running (k + 1) (r.edgeTime (k + 1))) s
  have hall := (hproduced.mono (by decide)).trans
    ((endEvent_evolves s (produceEdge n k e (.running (k + 1) (r.edgeTime (k + 1))) s)).mono
      (G := [.cad, .ser, .pins, .view]) (by decide))
  have hedge : cadenceEdge n s = endEvent s (produceEdge n k e (.running (k + 1) (r.edgeTime (k + 1))) s) := by
    have hswitch : (produceEdge n k e (.running (k + 1) (r.edgeTime (k + 1))) s).switch = s.switch :=
      hproduced.same .switch (by decide)
    rw [cadenceEdge_of_reached hst (atOrPast_iff.mpr hpast) hpulse hended, tellSwitch_of_unbound (hswitch ▸ hno)]
  refine ⟨_, congrArg Host.Outcome.next hedge, produced_told n k e _ s, ?_, fun hview => ?_, hall.same .time (by decide),
    hall.same .elapsed (by decide), hall.same .servo (by decide), hall.same .exch (by decide),
    hall.same .sources (by decide), hall.same .banks (by decide), hall.same .active (by decide),
    hall.same .switch (by decide), hall.same .cap (by decide)⟩
  · rw [endEvent_cad, produceEdge_cad_eq, pulseUntil_of_below hend, endTime_eq]
  · rw [endEvent_pins_of_none ((hproduced.same .view (by decide)).trans hview)]
    exact hproduced.same .pins (by decide)

/-! ### ONESHOT_FIRE -/

theorem not_wouldMiss {s : State} {n : Fin 8} (h : (s.cadRec n).policy = .always ∨ s.servo.traced = true) :
    s.wouldMiss n = false := by
  rw [Bool.eq_false_iff, ne_eq, wouldMiss_iff]
  rintro ⟨hpolicy, htraced⟩
  rcases h with h | h
  · rw [h] at hpolicy
    cases hpolicy
  · exact Bool.false_ne_true (htraced.symm.trans h)

theorem oneshotFire_of_held {n : Fin 8} {s : State}
    (h : ∀ k e, s.cad[n].st = .armed k e →
      s.time.total < e * 2 ^ 32 ∨ (((s.cadRec n).policy = .always ∨ s.servo.traced = true) ∧ ¬ s.mayFire n)) :
    oneshotFire n s = s := by
  unfold oneshotFire
  dsimp only
  split
  · rename_i k e hst
    rcases h k e hst with hahead | ⟨hpolicy, hheld⟩
    · exact if_pos (not_atOrPast_iff.mpr hahead)
    · have hback : heldBack s s.cad[n] = true := by
        rw [← Bool.not_eq_false]
        exact fun hb => hheld (mayFire_iff.mpr hb)
      rw [not_wouldMiss hpolicy, hback, if_neg Bool.false_ne_true, if_pos rfl, ite_self]
  · rfl

section
variable {n : Fin 8} {s : State} {k e : Nat} (hst : s.cad[n].st = .armed k e) (hpast : s.atOrPast e = true)
include hst hpast

theorem oneshotFire_of_missed (hmiss : s.wouldMiss n = true) :
    oneshotFire n s =
      endEvent s
        (tellSwitch n e (valueBefore s e) (raise .oneshotMissed (s.setCad n { s.cad[n] with st := .done }))) := by
  simp only [oneshotFire, hst, hpast, hmiss]
  rfl

theorem oneshotFire_of_fired (hmiss : s.wouldMiss n = false) (hheld : heldBack s s.cad[n] = false) :
    oneshotFire n s =
      endEvent s (tellSwitch n e (valueBefore s e) (raise .oneshotDone (produceEdge n k e .done s))) := by
  simp only [oneshotFire, hst, hpast, hmiss, hheld]
  rfl

end

theorem oneshotDone_raise_labelOverrun (s : State) (m : Fin 2) :
    (raise .oneshotDone s).isPending (.labelOverrun m) = s.isPending (.labelOverrun m) :=
  (raise_flags _ s).2 _ (by rintro (h | ⟨p, h⟩) <;> cases h)

theorem produceEdge_oneshotMissed (n : Fin 8) (k e : Nat) (next : CadState) (s : State) :
    (produceEdge n k e next s).isPending .oneshotMissed = s.isPending .oneshotMissed := by
  have htell : ∀ (m : Fin 2) (t : State), (tellSerializer n k e m t).isPending .oneshotMissed = t.isPending .oneshotMissed := by
    intro m t
    unfold tellSerializer
    dsimp only
    split
    · rfl
    · split
      · exact (raise_flags _ t).2 _ (by rintro (h | ⟨p, h⟩) <;> cases h)
      · exact (samePending_of_groups (State.setSer_groups t m _)).isPending _
  rw [produceEdge, tellEdge, bothSer, List.foldl_cons, List.foldl_cons, List.foldl_nil, htell, htell]
  exact (samePending_of_groups (State.setCad_groups s n _)).isPending _

/-- Settles O43. -/
theorem oneshotFiresOrMisses : Obligations.OneshotFiresOrMisses := by
  refine ⟨fun n s h => congrArg Host.Outcome.next (oneshotFire_of_held h), fun n s k e hst hpast hno => ?_⟩
  intro r
  have hreached := atOrPast_iff.mpr hpast
  refine ⟨fun hpolicy hfire hend => ?_, fun hpolicy htraced => congrArg Host.Outcome.next ?_⟩
  · have hproduced := produceEdge_evolves n k e .done s
    have hraised := (hproduced.trans ((raise_evolves .oneshotDone _).mono (by decide)))
    have hall := (hraised.mono (by decide)).trans
      ((endEvent_evolves s (raise .oneshotDone (produceEdge n k e .done s))).mono
        (G := [.cad, .ser, .pins, .view]) (by decide))
    have hfires : oneshotFire n s = endEvent s (raise .oneshotDone (produceEdge n k e .done s)) := by
      have hswitch : (raise .oneshotDone (produceEdge n k e .done s)).switch = s.switch := hraised.same .switch (by decide)
      rw [oneshotFire_of_fired hst hreached (not_wouldMiss hpolicy) (mayFire_iff.mp hfire),
        tellSwitch_of_unbound (hswitch ▸ hno)]
    refine ⟨_, congrArg Host.Outcome.next hfires, ?_, ?_, ?_, ?_, fun hview => ?_, hall.same .time (by decide),
      hall.same .servo (by decide), hall.same .banks (by decide), hall.same .active (by decide),
      hall.same .switch (by decide)⟩
    · refine serializersTold_of (fun m => ?_) fun m => ?_
      · rw [endEvent_word, endEvent_stepSeen, raise_ser, (produceEdge_told n k e .done s m).1]
        exact ⟨rfl, rfl⟩
      · rw [endEvent_isPending, oneshotDone_raise_labelOverrun, (produceEdge_told n k e .done s m).2]
    · rw [endEvent_cad, raise_cad, produceEdge_cad_eq, pulseUntil_of_below hend, endTime_eq]
    · rw [endEvent_isPending]
      exact raise_isPending_self _ _
    · rw [endEvent_isPending, (raise_flags _ _).2 _ (by rintro (h | ⟨p, h⟩) <;> cases h), produceEdge_oneshotMissed]
    · rw [endEvent_pins_of_none ((hraised.same .view (by decide)).trans hview)]
      exact hraised.same .pins (by decide)
  · have hswitch : (raise .oneshotMissed (s.setCad n { s.cad[n] with st := .done })).switch = s.switch :=
      ((raise_evolves _ _).same .switch (by decide)).trans ((s.setCad_evolves n _).same .switch (by decide))
    rw [oneshotFire_of_missed hst hreached (wouldMiss_iff.mpr ⟨hpolicy, htraced⟩), tellSwitch_of_unbound (hswitch ▸ hno)]
    rfl

end Sys2Proof.Machine
end

section
/-!
PROOFS. A switch of banks: what it makes of cadences and serializers, and what reaches it (R141, R151 to R155, R173, R174).
-/

namespace Sys2Proof.Machine

/-! ### Where a start leaves a cadence (R125, R129) -/

theorem startState_off {r : CadRec} (h : r.mode = .off) (traced : Bool) (least : Nat) : startState r traced least = .off := by
  rw [startState, h]

theorem startState_oneShot {r : CadRec} (h : r.mode = .oneShot) (traced : Bool) (least : Nat) :
    startState r traced least = .idle := by
  rw [startState, h]

theorem startState_waiting {r : CadRec} (h : r.mode = .continuous) (hpolicy : r.policy = .whenTraced) (least : Nat) :
    startState r false least = .waiting := by
  rw [startState, h]
  exact if_pos ⟨hpolicy, rfl⟩

theorem startState_running {r : CadRec} {traced : Bool} (h : r.mode = .continuous) (hpolicy : r.policy = .always ∨ traced = true)
    (least : Nat) : startState r traced least = .running (r.firstAt least) (r.edgeTime (r.firstAt least)) := by
  rw [startState, h]
  refine if_neg fun ⟨hwhen, hclear⟩ => ?_
  rcases hpolicy with hp | hp
  · rw [hp] at hwhen
    cases hwhen
  · exact Bool.false_ne_true (hclear.symm.trans hp)

/-! ### Words at a switch (R173, R174) -/

theorem abandon_of_none {c : LabelCfg} {x : Serializer} (h : x.word = none) : x.abandon c = x := by
  rw [Serializer.abandon, h]

theorem abandon_of_word {c : LabelCfg} {x : Serializer} {w : LabelWord} (h : x.word = some w) :
    x.abandon c = { x with word := none, stepSeen := x.stepSeen || (!w.isDone c && w.stepSeen) } := by
  rw [Serializer.abandon, h]

theorem isFresh_of_word {x : Serializer} {w : LabelWord} (h : x.word = some w) : x.isFresh = true ↔ w.count = 0 := by
  rw [Serializer.isFresh, h]
  exact decide_eq_true_iff

theorem isDone_iff {c : LabelCfg} {w : LabelWord} : w.isDone c = true ↔ c.delay + 96 * c.period ≤ w.count := decide_eq_true_iff

theorem not_isDone_iff {c : LabelCfg} {w : LabelWord} : w.isDone c = false ↔ w.count < c.delay + 96 * c.period :=
  decide_eq_false_iff_not.trans Nat.not_le

section
variable {out inc : Bank} {m : Fin 2} {x : Serializer}

theorem switched_of_relabelled (h : out.labels[m] ≠ inc.labels[m]) : x.switched out inc m = x.abandon out.labels[m] := if_pos h

theorem switched_of_restarted (hword : x.isFresh = true) (hcad : out.cad[out.labels[m].cadence] ≠ inc.cad[out.labels[m].cadence]) :
    x.switched out inc m = x.abandon out.labels[m] := by
  unfold Serializer.switched
  split
  · rfl
  · exact if_pos ⟨hword, hcad⟩

theorem switched_of_kept (h : out.labels[m] = inc.labels[m])
    (hcad : ¬ (x.isFresh = true ∧ out.cad[out.labels[m].cadence] ≠ inc.cad[out.labels[m].cadence])) :
    x.switched out inc m = x := by
  unfold Serializer.switched
  rw [if_neg (not_not.mpr h), if_neg hcad]

theorem switched_of_none (h : x.word = none) : x.switched out inc m = x := by
  unfold Serializer.switched
  rw [abandon_of_none h, ite_self, ite_self]

/-- A word that a switch ends, and one that goes on. -/
theorem switched_of_word {w : LabelWord} (h : x.word = some w) :
    let c := out.labels[m]
    let lost : Prop := c ≠ inc.labels[m] ∨ (w.count = 0 ∧ out.cad[c.cadence] ≠ inc.cad[c.cadence])
    let y := x.switched out inc m
    (lost →
      y.word = none ∧ (w.count < c.delay + 96 * c.period → y.stepSeen = (x.stepSeen || w.stepSeen)) ∧
        (c.delay + 96 * c.period ≤ w.count → y.stepSeen = x.stepSeen)) ∧
      (¬ lost → y.word = some w ∧ y.stepSeen = x.stepSeen) := by
  dsimp only
  refine ⟨fun hlost => ?_, fun hkept => ?_⟩
  · have hy : x.switched out inc m = x.abandon out.labels[m] := by
      rcases hlost with hl | ⟨hcount, hcad⟩
      · exact switched_of_relabelled hl
      · exact switched_of_restarted ((isFresh_of_word h).mpr hcount) hcad
    rw [hy, abandon_of_word h]
    refine ⟨rfl, fun hshift => ?_, fun hdone => ?_⟩
    · rw [not_isDone_iff.mpr hshift]
      rfl
    · rw [isDone_iff.mpr hdone]
      exact Bool.or_false _
  · obtain ⟨hl, hc⟩ := not_or.mp hkept
    rw [switched_of_kept (not_not.mp hl) fun ⟨hfresh, hcad⟩ => hc ⟨(isFresh_of_word h).mp hfresh, hcad⟩]
    exact ⟨h, rfl⟩

end

/-! ### What a switch leaves -/

theorem CadRun.switched_of_eq {out inc : Bank} {n : Fin 8} (h : out.cad[n] = inc.cad[n]) (traced : Bool) (least : Nat)
    (x : CadRun) : x.switched out inc traced least n = x := if_pos h

theorem CadRun.switched_of_ne {out inc : Bank} {n : Fin 8} (h : out.cad[n] ≠ inc.cad[n]) (traced : Bool) (least : Nat)
    (x : CadRun) : x.switched out inc traced least n = x.restarted inc.cad[n] traced least := if_neg h

theorem makeSwitch_raises (target : Fin 4) (at_ before : Nat) (s : State) :
    (makeSwitch target at_ before s).isPending .bankSwitched = true := by
  rw [makeSwitch_eq]
  exact raise_isPending_self _ _

/-! ### AT_TIME_REACHED -/

theorem atTimeReached_of_ahead {s : State} {q : SwitchReq} (hq : s.switch = some q) (h : q.isReached s = false) :
    atTimeReached s = s := by
  unfold atTimeReached
  rw [hq]
  dsimp only
  split
  · rw [h]
    rfl
  · rfl

theorem atTimeReached_of_reached {s : State} {q : SwitchReq} {sec ns : Nat} (hq : s.switch = some q)
    (htr : q.trigger = .atTime sec ns) (h : q.isReached s = true) :
    atTimeReached s = endEvent s (makeSwitch q.target (sec * 10 ^ 9 + ns) s.prevTime s) := by
  simp only [atTimeReached, hq, htr, h]
  rfl

/-- Settles O46. -/
theorem switchAtTimeMovesFormat : Obligations.SwitchAtTimeMovesFormat := by
  intro s q sec ns hq htr
  refine ⟨fun h => congrArg Host.Outcome.next (atTimeReached_of_ahead hq ?_), fun h => ?_⟩
  · rw [Bool.eq_false_iff, ne_eq, isReached_iff]
    rintro ⟨sec', ns', htr', h'⟩
    obtain ⟨rfl, rfl⟩ := Trigger.atTime.inj (htr.symm.trans htr')
    rcases h with ⟨hdue, htick⟩ | ⟨hdue, hahead⟩ <;> rcases h' with ⟨hdue', htick'⟩ | ⟨hdue', hpast⟩
    · exact Bool.false_ne_true (htick.symm.trans htick')
    · exact Bool.false_ne_true (hdue'.symm.trans hdue)
    · exact Bool.false_ne_true (hdue.symm.trans hdue')
    · exact Nat.not_lt.mpr hpast hahead
  intro out inc least
  have hreached : q.isReached s = true :=
    isReached_iff.mpr ⟨sec, ns, htr, h.symm⟩
  have hmade := makeSwitch_evolves q.target (sec * 10 ^ 9 + ns) s.prevTime s
  have hall := (hmade.mono (by decide)).trans
    ((endEvent_evolves s (makeSwitch q.target (sec * 10 ^ 9 + ns) s.prevTime s)).mono
      (G := [.cad, .ser, .active, .switch, .pins, .view]) (by decide))
  refine ⟨_, congrArg Host.Outcome.next (atTimeReached_of_reached hq htr hreached), ?_, ?_, ?_, hall.same .banks (by decide),
    hall.same .time (by decide), hall.same .elapsed (by decide), hall.same .servo (by decide), hall.same .exch (by decide),
    hall.same .sources (by decide), hall.same .cap (by decide), fun hview => ?_, fun n => ?_, fun m => ?_⟩
  · rw [endEvent_active, makeSwitch_active]
  · rw [endEvent_switch, makeSwitch_switch]
  · rw [endEvent_isPending, makeSwitch_raises]
  · rw [endEvent_pins_of_none ((hmade.same .view (by decide)).trans hview)]
    exact hmade.same .pins (by decide)
  · rw [endEvent_cad, makeSwitch_cad]
    refine ⟨fun heq => CadRun.switched_of_eq heq _ _ _, fun hne => ?_⟩
    have hx := CadRun.switched_of_ne (out := s.bank) (inc := s.banks[q.target]) hne s.servo.traced
      (atOrAfter (sec * 10 ^ 9 + ns) s.prevTime) s.cad[n]
    rw [hx]
    refine ⟨rfl, rfl, fun hmode => startState_off hmode _ _, fun hmode => startState_oneShot hmode _ _,
      fun hmode hpolicy htraced => ?_, fun hmode hpolicy => startState_running hmode hpolicy _⟩
    show startState _ s.servo.traced _ = _
    rw [htraced]
    exact startState_waiting hmode hpolicy _
  · have hword : (endEvent s (makeSwitch q.target (sec * 10 ^ 9 + ns) s.prevTime s)).ser[m].word =
        (s.ser[m].switched out inc m).word := by rw [endEvent_word, makeSwitch_ser]; rfl
    have hseen : (endEvent s (makeSwitch q.target (sec * 10 ^ 9 + ns) s.prevTime s)).ser[m].stepSeen =
        (s.ser[m].switched out inc m).stepSeen := by rw [endEvent_stepSeen, makeSwitch_ser]; rfl
    dsimp only
    rw [hword, hseen]
    refine ⟨fun hnone => ?_, fun w hw => switched_of_word hw⟩
    rw [switched_of_none hnone]
    exact ⟨hnone, rfl⟩

end Sys2Proof.Machine
end

section
/-!
PROOFS. A switch reached by an edge, a firing, a miss, a step or a catch-up advance (R152 to R155).
-/

namespace Sys2Proof.Machine

/-! ### Words that a trigger edge meets -/

section
variable {c : LabelCfg} {x : Serializer} (n : Fin 8) (k : Nat) (bits : BitVec 96)

/-- What is left of a word when its serializer's configuration changes, whether or not an edge of that tick was told to
it first. -/
theorem abandon_seen (hticks : 0 < c.delay + 96 * c.period) {y : Serializer} (hy : y = x ∨ y = x.told c n k bits) :
    (∀ w, x.word = some w →
      (y.abandon c).stepSeen = (x.stepSeen || (decide (w.count < c.delay + 96 * c.period) && w.stepSeen))) ∧
      (x.word = none → (y.abandon c).stepSeen = x.stepSeen) := by
  have hsame : (∀ w, x.word = some w →
      (x.abandon c).stepSeen = (x.stepSeen || (decide (w.count < c.delay + 96 * c.period) && w.stepSeen))) ∧
      (x.word = none → (x.abandon c).stepSeen = x.stepSeen) := by
    refine ⟨fun w hw => ?_, fun hw => by rw [abandon_of_none hw]⟩
    rw [abandon_of_word hw]
    cases hd : w.isDone c with
    | true =>
      rw [decide_eq_false (Nat.not_lt.mpr (isDone_iff.mp hd))]
      rfl
    | false =>
      rw [decide_eq_true (not_isDone_iff.mp hd)]
      rfl
  rcases hy with rfl | hy
  · exact hsame
  · by_cases hoff : c.enable = false ∨ c.cadence ≠ n
    · rw [Serializer.told, if_pos hoff] at hy
      exact hy ▸ hsame
    · rw [Serializer.told, if_neg hoff] at hy
      cases hbusy : x.busy c with
      | true =>
        rw [hbusy, if_pos rfl] at hy
        exact hy ▸ hsame
      | false =>
        rw [hbusy, if_neg Bool.false_ne_true] at hy
        have hseen : (y.abandon c).stepSeen = x.stepSeen := by
          have hnew : LabelWord.isDone c { bits := bits, index := k, stepSeen := x.stepSeen, count := 0 } = false :=
            not_isDone_iff.mpr hticks
          rw [hy, abandon_of_word rfl, hnew]
          rfl
        refine ⟨fun w hw => ?_, fun _ => hseen⟩
        have hdone : ¬ w.count < c.delay + 96 * c.period := fun hlt =>
          Bool.false_ne_true (hbusy.symm.trans (Serializer.busy_iff.mpr ⟨w, hw, hlt⟩))
        rw [hseen, decide_eq_false hdone, Bool.false_and, Bool.or_false]

theorem abandon_word (c : LabelCfg) (y : Serializer) : (y.abandon c).word = none := by
  unfold Serializer.abandon
  split
  · rfl
  · assumption

/-- An idle serializer bound to the cadence takes the word of its edge. -/
theorem told_of_idle (hen : c.enable = true) (hcad : c.cadence = n) (hw : x.word = none) :
    x.told c n k bits = { x with word := some { bits := bits, index := k, stepSeen := x.stepSeen, count := 0 }, stepSeen := false } := by
  have hon : ¬ (c.enable = false ∨ c.cadence ≠ n) := by
    rw [hen, hcad]
    simp
  have hbusy : x.busy c = false := by rw [Serializer.busy, hw]
  rw [Serializer.told, if_neg hon, hbusy, if_neg Bool.false_ne_true]

end

/-! ### A switch that is made -/

theorem tellSwitch_of_bound {n : Fin 8} {e before : Nat} {s : State} {q : SwitchReq} (hq : s.switch = some q)
    (htr : q.trigger = .atEdge n) : tellSwitch n e before s = makeSwitch q.target e before s := by
  simp only [tellSwitch, hq, htr, if_true]

/-- What a switch to `target` with least edge time `least` leaves, in the words of the obligations; `s` is the state
whose banks it goes by. -/
structure State.switchedTo (s t : State) (target : Fin 4) (least : Nat) : Prop where
  active : t.active = target
  switch : t.switch = none
  flag : t.isPending .bankSwitched = true
  banks : t.banks = s.banks
  started (n : Fin 8) : s.banks[s.active].cad[n] ≠ s.banks[target].cad[n] →
    t.cad[n].st = startState s.banks[target].cad[n] s.servo.traced least ∧ t.cad[n].pulse = none

theorem makeSwitch_switchedTo {F : List Field} {s u : State} (h : s.sameBut F u) (hF : ∀ f ∈ [Field.banks, .active], f ∉ F)
    (htraced : u.servo.traced = s.servo.traced) (target : Fin 4) (at_ before : Nat) :
    s.switchedTo (makeSwitch target at_ before u) target (max at_ (before / 2 ^ 32 + 1)) where
  active := makeSwitch_active _ _ _ u
  switch := makeSwitch_switch _ _ _ u
  flag := makeSwitch_raises _ _ _ u
  banks := (makeSwitch_banks _ _ _ u).trans (h .banks (hF _ (by decide)))
  started n hne := by
    have hbanks : u.banks = s.banks := h .banks (hF _ (by decide))
    have hactive : u.active = s.active := h .active (hF _ (by decide))
    have hbank : u.bank = s.banks[s.active] := by simp only [State.bank, hbanks, hactive]
    rw [makeSwitch_cad, hbank, hbanks, CadRun.switched_of_ne hne, htraced]
    exact ⟨rfl, rfl⟩

/-- What follows the switch at its tick: outputs brought up to date, notices given. -/
theorem State.switchedTo.after {s t u : State} {target : Fin 4} {least : Nat} (h : s.switchedTo t target least)
    (hactive : u.active = t.active) (hswitch : u.switch = t.switch) (hbanks : u.banks = t.banks)
    (hflag : t.isPending .bankSwitched = true → u.isPending .bankSwitched = true)
    (hcad : ∀ n : Fin 8, u.cad[n].st = t.cad[n].st ∧ (t.cad[n].pulse = none → u.cad[n].pulse = none)) :
    s.switchedTo u target least where
  active := hactive.trans h.active
  switch := hswitch.trans h.switch
  flag := hflag h.flag
  banks := hbanks.trans h.banks
  started n hne := ⟨(hcad n).1.trans (h.started n hne).1, (hcad n).2 (h.started n hne).2⟩

theorem State.switchedTo.endEvent {s t : State} {target : Fin 4} {least : Nat} (h : s.switchedTo t target least) (u : State) :
    s.switchedTo (endEvent u t) target least :=
  h.after (endEvent_active _ _) (endEvent_switch _ _) (endEvent_banks _ _) ((endEvent_isPending u t _).trans)
    fun n => by rw [endEvent_cad]; exact ⟨rfl, id⟩

/-! ### An edge, a firing or a miss -/

/-- The value taken for the tick before an edge is that of the tick that reached it. -/
theorem valueBefore_eq (s : State) (e : Nat) :
    valueBefore s e = if e * 2 ^ 32 ≤ s.prevTime then s.prevTime2 else s.prevTime := rfl

/-- What a trigger at time `e` of cadence `n` brings about: `u` is the state after the edge or the miss, before the
switch. -/
structure State.triggers (s u : State) (n : Fin 8) : Prop where
  same : s.sameBut [.cad, .ser] u
  others (m : Fin 8) : m ≠ n → u.cad[m] = s.cad[m]

section
variable {s u : State} {n : Fin 8} {q : SwitchReq} (h : s.triggers u n) (e : Nat)
include h

theorem State.triggers.switchedTo :
    s.switchedTo (Machine.endEvent s (makeSwitch q.target e (valueBefore s e) u)) q.target
      (max e ((if e * 2 ^ 32 ≤ s.prevTime then s.prevTime2 else s.prevTime) / 2 ^ 32 + 1)) := by
  have hservo : u.servo = s.servo := h.same .servo (by decide)
  have hmade := makeSwitch_switchedTo h.same (by decide) (by rw [hservo]) q.target e (valueBefore s e)
  exact hmade.endEvent s

theorem State.triggers.bank : u.bank = s.banks[s.active] ∧ u.banks = s.banks := by
  have hbanks : u.banks = s.banks := h.same .banks (by decide)
  have hactive : u.active = s.active := h.same .active (by decide)
  exact ⟨by simp only [State.bank, hbanks, hactive], hbanks⟩

theorem State.triggers.cad (m : Fin 8) :
    (Machine.endEvent s (makeSwitch q.target e (valueBefore s e) u)).cad[m].last = u.cad[m].last ∧
      (s.banks[s.active].cad[m] = s.banks[q.target].cad[m] →
        (Machine.endEvent s (makeSwitch q.target e (valueBefore s e) u)).cad[m] = u.cad[m]) := by
  obtain ⟨hbank, hbanks⟩ := h.bank
  rw [endEvent_cad, makeSwitch_cad, hbank, hbanks]
  refine ⟨?_, fun heq => CadRun.switched_of_eq heq _ _ _⟩
  by_cases heq : s.banks[s.active].cad[m] = s.banks[q.target].cad[m]
  · rw [CadRun.switched_of_eq heq]
  · rw [CadRun.switched_of_ne heq]
    rfl

theorem State.triggers.ser (m : Fin 2) :
    (Machine.endEvent s (makeSwitch q.target e (valueBefore s e) u)).ser[m].word =
        (u.ser[m].switched s.banks[s.active] s.banks[q.target] m).word ∧
      (Machine.endEvent s (makeSwitch q.target e (valueBefore s e) u)).ser[m].stepSeen =
        (u.ser[m].switched s.banks[s.active] s.banks[q.target] m).stepSeen := by
  obtain ⟨hbank, hbanks⟩ := h.bank
  rw [endEvent_word, endEvent_stepSeen, makeSwitch_ser, hbank, hbanks]
  exact ⟨rfl, rfl⟩

end

theorem produceEdge_triggers (n : Fin 8) (k e : Nat) (next : CadState) (s : State) :
    s.triggers (produceEdge n k e next s) n where
  same := (produceEdge_evolves n k e next s).same
  others m hm := by rw [produceEdge_cad, if_neg hm]

theorem State.triggers.raise {s u : State} {n : Fin 8} (h : s.triggers u n) (f : Event) : s.triggers (Machine.raise f u) n where
  same := h.same.trans ((raise_evolves f u).same.mono (by decide))
  others m hm := (raise_cad_get f u m).trans (h.others m hm)

theorem setCad_triggers (s : State) (n : Fin 8) (x : CadRun) : s.triggers (s.setCad n x) n where
  same := (s.setCad_evolves n x).same.mono (by decide)
  others m hm := by rw [State.setCad_get, if_neg hm]

/-! ### A step and a catch-up advance -/

/-- What a step or a catch-up advance has a switch looked at by: `b` is the state before the cadences acted, `u` the
state after, and `t` the state at the end of the tick. -/
structure State.looks (s b u t : State) : Prop where
  kept : s.sameBut [.time, .elapsed, .elapsedRem, .prevTime, .prevTime2, .exch, .cad, .cap, .ser, .switch, .clock, .steps] u
  request : u.switch = s.switch.map fun q => { q with dueTick := q.due }
  now : t.time = u.time
  before : u.prevTime = u.time.total
  judged (m : Fin 8) : b.cad[m].st = s.cad[m].st
  missed (m : Fin 8) (k e : Nat) : s.cad[m].st = .armed k e → u.atOrPast e = true → u.isPending .oneshotMissed = true
  flags : (reevaluateSwitch b u).flagsFrom Event.isNotice t
  active : t.active = (reevaluateSwitch b u).active
  switch : t.switch = (reevaluateSwitch b u).switch
  banks : t.banks = (reevaluateSwitch b u).banks
  cad (n : Fin 8) : t.cad[n].st = (reevaluateSwitch b u).cad[n].st ∧
    ((reevaluateSwitch b u).cad[n].pulse = none → t.cad[n].pulse = none)

section
variable {s b u t : State} (h : s.looks b u t)
include h

/-- The switch is made with the start time that it waits for, the counter's own value standing for the tick before. -/
theorem State.looks.made {q : SwitchReq} (at_ : Nat) (hmade : reevaluateSwitch b u = makeSwitch q.target at_ u.prevTime u) :
    s.switchedTo t q.target (max at_ (t.time.total / 2 ^ 32 + 1)) := by
  have hservo : u.servo = s.servo := h.kept .servo (by decide)
  have hswitched := makeSwitch_switchedTo h.kept (by decide) (by rw [hservo]) q.target at_ u.prevTime
  rw [← hmade, h.before, ← h.now] at hswitched
  exact hswitched.after h.active h.switch h.banks (h.flags.1 _) h.cad

theorem State.looks.waits (hkeep : reevaluateSwitch b u = u) :
    t.active = s.active ∧ t.switch = s.switch.map fun q => { q with dueTick := q.due } := by
  rw [h.active, h.switch, hkeep, ← h.request]
  exact ⟨h.kept .active (by decide), rfl⟩

/-- R151, R152: an AT_TIME switch at a step or a catch-up advance. -/
theorem State.looks.atTime {q : SwitchReq} {sec ns : Nat} (hq : s.switch = some q) (htr : q.trigger = .atTime sec ns) :
    (q.due = true ∨ (sec * 10 ^ 9 + ns) * 2 ^ 32 ≤ t.time.total →
        s.switchedTo t q.target (max (sec * 10 ^ 9 + ns) (t.time.total / 2 ^ 32 + 1))) ∧
      (q.due = false → t.time.total < (sec * 10 ^ 9 + ns) * 2 ^ 32 →
        t.active = s.active ∧ t.switch = some { q with dueTick := false }) := by
  have hreq : u.switch = some { q with dueTick := q.due } := by rw [h.request, hq]; rfl
  refine ⟨fun hreached => h.made (q := q) _ ?_, fun hdue hahead => ?_⟩
  · have hcond : q.due = true ∨ u.atOrPast (triggerNs sec ns) = true :=
      hreached.imp id fun hp => atOrPast_iff.mpr (h.now ▸ hp)
    simp only [reevaluateSwitch, hreq, htr, if_pos hcond]
    rfl
  · have hcond : ¬ (q.due = true ∨ u.atOrPast (triggerNs sec ns) = true) := by
      rintro (hd | hp)
      · exact Bool.false_ne_true (hdue.symm.trans hd)
      · exact Nat.not_lt.mpr (atOrPast_iff.mp hp) (h.now ▸ hahead)
    have hkeep : reevaluateSwitch b u = u := by simp only [reevaluateSwitch, hreq, htr, if_neg hcond]
    obtain ⟨hactive, hswitch⟩ := h.waits hkeep
    rw [hswitch, hq]
    exact ⟨hactive, by rw [← hdue]; rfl⟩

/-- R154: an AT_EDGE switch whose trigger misses its edge. -/
theorem State.looks.atEdge_missed {q : SwitchReq} {m : Fin 8} {k e : Nat} (hq : s.switch = some q) (htr : q.trigger = .atEdge m)
    (hst : s.cad[m].st = .armed k e) (hpast : e * 2 ^ 32 ≤ t.time.total) :
    s.switchedTo t q.target (max e (t.time.total / 2 ^ 32 + 1)) ∧ t.isPending .oneshotMissed = true := by
  have hreq : u.switch = some { q with dueTick := q.due } := by rw [h.request, hq]; rfl
  have hp : u.atOrPast e = true := atOrPast_iff.mpr (h.now ▸ hpast)
  have hmissed : missedEdge b u m = some e := by
    simp only [missedEdge, h.judged, hst, hp]
    rfl
  have hmade : reevaluateSwitch b u = makeSwitch q.target e u.prevTime u := by
    simp only [reevaluateSwitch, hreq, htr, hmissed]
  refine ⟨h.made (q := q) _ hmade, h.flags.1 _ ?_⟩
  exact (reevaluateSwitch_flags b u).1 _ (h.missed m k e hst hp)

theorem State.looks.atEdge_waits {q : SwitchReq} {m : Fin 8} (hq : s.switch = some q) (htr : q.trigger = .atEdge m)
    (hnot : ∀ k e, s.cad[m].st = .armed k e → t.time.total < e * 2 ^ 32) :
    t.active = s.active ∧ t.switch.map SwitchReq.trigger = some q.trigger := by
  have hreq : u.switch = some { q with dueTick := q.due } := by rw [h.request, hq]; rfl
  have hmissed : missedEdge b u m = none := by
    unfold missedEdge
    rw [h.judged]
    split
    · rename_i k e hst
      refine if_neg fun hp => Nat.not_lt.mpr (atOrPast_iff.mp hp) ?_
      exact h.now ▸ hnot k e hst
    · rfl
  have hkeep : reevaluateSwitch b u = u := by simp only [reevaluateSwitch, hreq, htr, hmissed]
  obtain ⟨hactive, hswitch⟩ := h.waits hkeep
  rw [hswitch, hq]
  exact ⟨hactive, rfl⟩

end

theorem tickEnd_cad_parts (inp : TickIn) (w : State) (n : Fin 8) :
    (tickEnd inp w).cad[n].st = w.cad[n].st ∧ (w.cad[n].pulse = none → (tickEnd inp w).cad[n].pulse = none) := by
  rw [tickEnd_cad]
  refine ⟨rfl, fun hpulse => ?_⟩
  show limitPulse _ _ = none
  rw [hpulse, limitPulse_none]

/-- A step looks at a waiting switch. -/
theorem looks_of_step {inp : TickIn} {s : State} {r : StepReq} {v : TimeVal} (hs : s.steps = [r])
    (hr : r.result (s.time.advance (incrementOf s.servo.a)) = some v) :
    s.looks (stepTold v (stepReady inp s)) (stepNotified v (stepReady inp s)) (tickAll inp s) := by
  have htick := tickAll_of_told (inp := inp) hs hr
  have hready := stepReady_sameBut inp s
  have hnotified := stepNotified_evolves v (stepReady inp s)
  have hend := tickEnd_sameBut inp (makeStep v (stepReady inp s))
  rw [← htick, makeStep_eq_notified] at hend
  have htold : (stepTold v (stepReady inp s)).time = v ∧ (stepTold v (stepReady inp s)).prevTime = v.total := by
    rw [stepTold, exchangeStep, raise_time, raise_prevTime]
    exact ⟨rfl, rfl⟩
  have hrest : (stepTold v (stepReady inp s)).sameBut [.cad, .cap, .ser] (stepNotified v (stepReady inp s)) :=
    ((stepCads_evolves _).same.mono (by decide)).trans ((stepMarked_evolves _).same.mono (by decide))
  have htime : (stepNotified v (stepReady inp s)).time = v := (hrest .time (by decide)).trans htold.1
  have hcads : ∀ m : Fin 8, (stepTold v (stepReady inp s)).cad[m].st = s.cad[m].st := fun m => by
    have h : (stepTold v (stepReady inp s)).cad = (stepReady inp s).cad := (stepTold_evolves v _).same .cad (by decide)
    rw [h, stepReady_cad]
    rfl
  refine
    { kept := (hready.mono (by decide)).trans (hnotified.same.mono (by decide))
      request := (hnotified.same .switch (by decide)).trans (stepReady_switch inp s)
      now := ?_
      before := ?_
      judged := hcads
      missed := fun m k e hst hp => ?_
      flags := ?_
      active := hend .active (by decide)
      switch := hend .switch (by decide)
      banks := hend .banks (by decide)
      cad := fun n => ?_ }
  · rw [htick, tickEnd_time, makeStep_time_eq, htime]
  · rw [htime]
    exact (hrest .prevTime (by decide)).trans htold.2
  · have hpast : (stepTold v (stepReady inp s)).atOrPast e = true := by
      rw [← hp, atOrPast_congr (htime.trans htold.1.symm)]
    exact ((samePending_of_groups (stepMarked_groups _)).isPending _).trans (stepCads_raises.2 ((hcads m).trans hst) hpast)
  · rw [htick, makeStep_eq_notified]
    exact tickEnd_flags inp (reevaluateSwitch (stepTold v (stepReady inp s)) (stepNotified v (stepReady inp s)))
  · rw [htick, makeStep_eq_notified]
    exact tickEnd_cad_parts inp (reevaluateSwitch (stepTold v (stepReady inp s)) (stepNotified v (stepReady inp s))) n

theorem lossAdvance_prevTime (n : Nat) (inp : TickIn) (s : State) :
    (lossAdvance n inp s).prevTime = (lossAdvance n inp s).time.total := rfl

theorem clockLoss_flags_after {n : Nat} {inp : TickIn} {s : State} (hclock : s.clock = .normal) :
    (lossCaughtUp n inp s).flagsFrom Event.isNotice (clockLoss n inp s) := by
  rw [clockLoss_eq hclock]
  exact ((servoClockLoss_flags _).trans (raise_isNotice clockLoss_isNotice _)).trans (tickEnd_flags inp _)

/-- A loss of TCLK looks at a waiting switch. -/
theorem looks_of_loss {n : Nat} {inp : TickIn} {s : State} (hclock : s.clock = .normal) :
    s.looks (lossAdvance n inp s) (catchUpCads (lossAdvance n inp s)) (clockLoss n inp s) := by
  have hadvance := lossAdvance_evolves n inp s
  have hcatch := catchUpCads_evolves (lossAdvance n inp s)
  have hend : (lossCaughtUp n inp s).sameBut (.servo :: tickEndFields) (clockLoss n inp s) := by
    rw [clockLoss_eq hclock]
    exact (lossTold_after.mono (by decide)).trans ((tickEnd_sameBut inp _).mono (by decide))
  have htime : (catchUpCads (lossAdvance n inp s)).time = (lossAdvance n inp s).time := hcatch.same .time (by decide)
  have hst : ∀ m : Fin 8, (lossAdvance n inp s).cad[m].st = s.cad[m].st := fun m => by
    rw [lossAdvance_cad]
    rfl
  refine
    { kept := (hadvance.same.mono (by decide)).trans (hcatch.same.mono (by decide))
      request := (hcatch.same .switch (by decide)).trans (lossAdvance_switch n inp s)
      now := (clockLoss_counters hclock).1.trans htime.symm
      before := ?_
      judged := hst
      missed := fun m k e hm hp => ?_
      flags := ?_
      active := hend .active (by decide)
      switch := hend .switch (by decide)
      banks := hend .banks (by decide)
      cad := fun m => ?_ }
  · rw [htime]
    exact (hcatch.same .prevTime (by decide)).trans (lossAdvance_prevTime n inp s)
  · rw [atOrPast_congr htime] at hp
    exact (catchUpCads_raises hp).2 ((hst m).trans hm)
  · exact clockLoss_flags_after hclock
  · have hcad : (lossTold n inp s).cad = (lossCaughtUp n inp s).cad := lossTold_after .cad (by decide)
    have hparts := tickEnd_cad_parts inp (lossTold n inp s) m
    rw [← clockLoss_eq hclock, hcad] at hparts
    exact hparts

end Sys2Proof.Machine
end

section
/-!
PROOFS. The settling of O47, and the label words (R166 to R169).
-/

namespace Sys2Proof.Machine

section
variable {s u : State} {n : Fin 8} {q : SwitchReq} (h : s.triggers u n) {k e : Nat}
include h

/-- Words whose configuration a switch changes are lost, those begun by the trigger edge too (R173). -/
theorem State.triggers.relabelled
    (hser : ∀ m : Fin 2, ∃ bits, u.ser[m] = s.ser[m] ∨ u.ser[m] = s.ser[m].told (s.label m) n k bits) (m : Fin 2)
    (hl : s.banks[s.active].labels[m] ≠ s.banks[q.target].labels[m]) :
    let t := Machine.endEvent s (makeSwitch q.target e (valueBefore s e) u)
    let c := s.banks[s.active].labels[m]
    t.ser[m].word = none ∧
      (0 < c.delay + 96 * c.period →
        (∀ w, s.ser[m].word = some w →
          t.ser[m].stepSeen = (s.ser[m].stepSeen || (decide (w.count < c.delay + 96 * c.period) && w.stepSeen))) ∧
          (s.ser[m].word = none → t.ser[m].stepSeen = s.ser[m].stepSeen)) := by
  obtain ⟨hword, hseen⟩ := h.ser (q := q) e m
  obtain ⟨bits, hu⟩ := hser m
  dsimp only
  rw [hword, hseen, switched_of_relabelled hl]
  exact ⟨abandon_word _ _, fun hticks => abandon_seen (c := s.banks[s.active].labels[m]) n k bits hticks hu⟩

/-- The word that the trigger edge begins goes on where nothing of it differs, and is lost with a changed record
(R174). -/
theorem State.triggers.begun {m : Fin 2} {bits : BitVec 96} (hser : u.ser[m] = s.ser[m].told (s.label m) n k bits)
    (hl : s.banks[s.active].labels[m] = s.banks[q.target].labels[m]) (hen : s.banks[s.active].labels[m].enable = true)
    (hcad : s.banks[s.active].labels[m].cadence = n) (hw : s.ser[m].word = none)
    (hticks : 0 < s.banks[s.active].labels[m].delay + 96 * s.banks[s.active].labels[m].period) :
    let t := Machine.endEvent s (makeSwitch q.target e (valueBefore s e) u)
    (s.banks[s.active].cad[n] = s.banks[q.target].cad[n] →
        t.ser[m].stepSeen = false ∧
          t.ser[m].word = some { bits := bits, index := k, stepSeen := s.ser[m].stepSeen, count := 0 }) ∧
      (s.banks[s.active].cad[n] ≠ s.banks[q.target].cad[n] →
        t.ser[m].word = none ∧ t.ser[m].stepSeen = s.ser[m].stepSeen) := by
  obtain ⟨hword, hseen⟩ := h.ser (q := q) e m
  have htold := told_of_idle (c := s.banks[s.active].labels[m]) n k bits hen hcad hw
  have hu : u.ser[m] =
      { s.ser[m] with word := some { bits := bits, index := k, stepSeen := s.ser[m].stepSeen, count := 0 }, stepSeen := false } :=
    hser.trans htold
  have hrec : ∀ b : Bank, b.cad[s.banks[s.active].labels[m].cadence] = b.cad[n] := fun b => by simp only [hcad]
  dsimp only
  rw [hword, hseen, hu]
  refine ⟨fun heq => ?_, fun hne => ?_⟩
  · rw [switched_of_kept hl fun hc => hc.2 ((hrec _).trans (heq.trans (hrec _).symm))]
    exact ⟨rfl, rfl⟩
  · have hnew : LabelWord.isDone s.banks[s.active].labels[m]
        { bits := bits, index := k, stepSeen := s.ser[m].stepSeen, count := 0 } = false := not_isDone_iff.mpr hticks
    rw [switched_of_restarted rfl (fun heq => hne ((hrec _).symm.trans (heq.trans (hrec _)))), abandon_of_word rfl, hnew]
    exact ⟨rfl, Bool.false_or _⟩

end

theorem raise_keeps_ser (f : Event) {u : State} {m : Fin 2} {x : Serializer} (h : u.ser[m] = x) : (raise f u).ser[m] = x :=
  (raise_ser_get f u m).trans h

/-- Settles O47. -/
theorem switchReachedByEdgeOrStep : Obligations.SwitchReachedByEdgeOrStep := by
  intro s q hq out inc made least
  have hmade : ∀ {t l}, s.switchedTo t q.target l → made t l := fun h => ⟨h.active, h.switch, h.flag, h.banks, h.started⟩
  refine ⟨?_, fun c inp hc => ?_⟩
  · intro n k e htr hpast before untouched relabelled begun
    have hreached := atOrPast_iff.mpr hpast
    have huntouched : ∀ {u}, s.triggers u n → untouched (endEvent s (makeSwitch q.target e (valueBefore s e) u)) :=
      fun h m hm heq => ((h.cad (q := q) e m).2 heq).trans (h.others m hm)
    have hrelabelled : ∀ {u}, s.triggers u n →
        (∀ m : Fin 2, ∃ bits, u.ser[m] = s.ser[m] ∨ u.ser[m] = s.ser[m].told (s.label m) n k bits) →
        relabelled (endEvent s (makeSwitch q.target e (valueBefore s e) u)) := fun h hser m hl => by
      obtain ⟨hword, hseen⟩ := h.relabelled (q := q) (e := e) hser m hl
      refine ⟨hword, fun hticks => ?_⟩
      obtain ⟨hsome, hnone⟩ := hseen hticks
      cases hw : s.ser[m].word with
      | none => exact hnone hw
      | some w => exact hsome w hw
    have hbegun : ∀ {u}, s.triggers u n →
        (∀ m : Fin 2, u.ser[m] = s.ser[m].told (s.label m) n k (composeBits s n k e s.ser[m].stepSeen)) →
        begun (endEvent s (makeSwitch q.target e (valueBefore s e) u)) := fun h hser m hl hen hcad hw hticks =>
      h.begun (q := q) (hser m) hl hen hcad hw hticks
    refine ⟨fun hst hpulse hended => ?_, fun hst hmay => ?_⟩
    · have htrig := produceEdge_triggers n k e (.running (k + 1) ((s.cadRec n).edgeTime (k + 1))) s
      have hswitch : (produceEdge n k e (.running (k + 1) ((s.cadRec n).edgeTime (k + 1))) s).switch = some q :=
        (htrig.same .switch (by decide)).trans hq
      have hedge := cadenceEdge_of_reached hst hreached hpulse hended
      rw [tellSwitch_of_bound hswitch htr] at hedge
      have hself := produceEdge_cad n k e (.running (k + 1) ((s.cadRec n).edgeTime (k + 1))) s n
      rw [if_pos rfl] at hself
      have hser := fun m => (produceEdge_told n k e (.running (k + 1) ((s.cadRec n).edgeTime (k + 1))) s m).1
      obtain ⟨hlast, hkept⟩ := htrig.cad (q := q) e n
      refine ⟨_, congrArg Host.Outcome.next hedge, hmade (htrig.switchedTo e), huntouched htrig,
        hrelabelled htrig fun m => ⟨_, .inr (hser m)⟩, hbegun htrig hser, ?_, fun heq => ?_⟩
      · rw [hlast, hself]
      · rw [hkept heq, hself]
        rfl
    · by_cases hmiss : s.wouldMiss n = true
      · have htrig := (setCad_triggers s n { s.cad[n] with st := .done }).raise .oneshotMissed
        have hswitch : (raise .oneshotMissed (s.setCad n { s.cad[n] with st := .done })).switch = some q :=
          (htrig.same .switch (by decide)).trans hq
        have hfire := oneshotFire_of_missed hst hreached hmiss
        rw [tellSwitch_of_bound hswitch htr] at hfire
        have hself : (raise .oneshotMissed (s.setCad n { s.cad[n] with st := .done })).cad[n] = { s.cad[n] with st := .done } := by
          rw [raise_cad_get, State.setCad_get, if_pos rfl]
        have hser : ∀ m : Fin 2, (raise .oneshotMissed (s.setCad n { s.cad[n] with st := .done })).ser[m] = s.ser[m] := fun m =>
          raise_keeps_ser _ (by simp only [State.setCad_ser])
        obtain ⟨hlast, hkept⟩ := htrig.cad (q := q) e n
        obtain ⟨hwhen, hclear⟩ := wouldMiss_iff.mp hmiss
        refine ⟨_, congrArg Host.Outcome.next hfire, hmade (htrig.switchedTo e), huntouched htrig,
          hrelabelled htrig fun m => ⟨0, .inl (hser m)⟩, fun heq => ?_, fun hpolicy => ?_, fun _ _ => ⟨?_, ?_⟩⟩
        · rw [hkept heq, hself]
        · exact absurd hmiss (Bool.eq_false_iff.mp (not_wouldMiss hpolicy))
        · rw [hlast, hself]
        · rw [endEvent_isPending]
          exact (makeSwitch_flags _ _ _ _).1 _ (raise_isPending_self _ _)
      · have hfires : s.mayFire n := hmay.resolve_right fun hm => hmiss (wouldMiss_iff.mpr hm)
        have hnomiss := Bool.eq_false_iff.mpr hmiss
        have htrig := (produceEdge_triggers n k e .done s).raise .oneshotDone
        have hswitch : (raise .oneshotDone (produceEdge n k e .done s)).switch = some q :=
          (htrig.same .switch (by decide)).trans hq
        have hfire := oneshotFire_of_fired hst hreached hnomiss (mayFire_iff.mp hfires)
        rw [tellSwitch_of_bound hswitch htr] at hfire
        have hself := produceEdge_cad n k e .done s n
        rw [if_pos rfl, ← raise_cad_get .oneshotDone] at hself
        have hser := fun m => raise_keeps_ser .oneshotDone (produceEdge_told n k e .done s m).1
        obtain ⟨hlast, hkept⟩ := htrig.cad (q := q) e n
        refine ⟨_, congrArg Host.Outcome.next hfire, hmade (htrig.switchedTo e), huntouched htrig,
          hrelabelled htrig fun m => ⟨_, .inr (hser m)⟩, fun heq => ?_, fun _ => ⟨hbegun htrig hser, ?_, ?_⟩, fun hwhen hclear => ?_⟩
        · rw [hkept heq, hself]
        · rw [hlast, hself]
        · rw [endEvent_isPending]
          exact (makeSwitch_flags _ _ _ _).1 _ (raise_isPending_self _ _)
        · exact absurd (wouldMiss_iff.mpr ⟨hwhen, hclear⟩) hmiss
  · have hlooks : ∃ t b u, exec c s = .next t ∧ s.looks b u t := by
      rcases hc with ⟨r, v, hs, hr, rfl⟩ | ⟨n, rfl, hclock⟩
      · exact ⟨_, _, _, stepTick_counters (by rw [hs]; nofun), looks_of_step hs hr⟩
      · exact ⟨_, _, _, rfl, looks_of_loss hclock⟩
    obtain ⟨t, b, u, hexec, h⟩ := hlooks
    refine ⟨t, hexec, fun sec ns htr => ?_, fun m htr => ⟨fun k e hst => ⟨fun hpast => ?_, fun hahead => ?_⟩, fun k e hst => ?_⟩⟩
    · obtain ⟨hreached, hwaits⟩ := h.atTime hq htr
      exact ⟨fun hr => hmade (hreached hr), hwaits⟩
    · obtain ⟨hswitched, hflag⟩ := h.atEdge_missed hq htr hst hpast
      exact ⟨hmade hswitched, hflag⟩
    · refine h.atEdge_waits hq htr fun k' e' hst' => ?_
      obtain ⟨-, rfl⟩ := CadState.armed.inj (hst.symm.trans hst')
      exact hahead
    · refine h.atEdge_waits hq htr fun k' e' hst' => ?_
      cases hst.symm.trans hst'

end Sys2Proof.Machine
end

section
/-!
PROOFS. The label words: composed, shifted and completed (R166, R168, R169).
-/

namespace Sys2Proof.Machine

/-! ### Fields of words put together -/

theorem getLsbD_append_high {a b : Nat} (x : BitVec a) (y : BitVec b) (i : Nat) : (x ++ y).getLsbD (b + i) = x.getLsbD i := by
  rw [BitVec.getLsbD_append, if_neg (by omega), Nat.add_sub_cancel_left]

theorem getLsbD_append_ofBool {a : Nat} (x : BitVec a) (v : Bool) : (x ++ BitVec.ofBool v).getLsbD 0 = v := by
  rw [BitVec.getLsbD_append, if_pos (by decide), BitVec.getLsbD_ofBool]
  rfl

theorem extractLsb'_append_high {a b : Nat} (x : BitVec a) (y : BitVec b) (i len : Nat) :
    (x ++ y).extractLsb' (b + i) len = x.extractLsb' i len := by
  ext j hj
  rw [BitVec.getElem_extractLsb', BitVec.getElem_extractLsb', Nat.add_assoc, getLsbD_append_high]

theorem extractLsb'_append_low {a b : Nat} (x : BitVec a) (y : BitVec b) : (x ++ y).extractLsb' 0 b = y := by
  ext j hj
  rw [BitVec.getElem_extractLsb', BitVec.getLsbD_append, if_pos (by omega), Nat.zero_add, BitVec.getLsbD_eq_getElem hj]

/-- The fields of a word put together most significant first. -/
theorem wordFields (a : BitVec 48) (b : BitVec 40) (c : BitVec 3) (l t x q v : Bool) :
    let w : BitVec (48 + 40 + 3 + 1 + 1 + 1 + 1 + 1) :=
      a ++ b ++ c ++ BitVec.ofBool l ++ BitVec.ofBool t ++ BitVec.ofBool x ++ BitVec.ofBool q ++ BitVec.ofBool v
    w.extractLsb' 48 48 = a ∧ w.extractLsb' 8 40 = b ∧ w.extractLsb' 5 3 = c ∧ w.getLsbD 4 = l ∧ w.getLsbD 3 = t ∧
      w.getLsbD 2 = x ∧ w.getLsbD 1 = q ∧ w.getLsbD 0 = v := by
  intro w
  have hbits : ∀ i len, w.extractLsb' (1 + (1 + (1 + (1 + (1 + i))))) len = (a ++ b ++ c).extractLsb' i len := fun i len => by
    simp only [w, extractLsb'_append_high]
  refine ⟨?_, ?_, ?_, ?_, ?_, ?_, ?_, getLsbD_append_ofBool _ _⟩
  · refine (hbits (3 + (40 + 0)) 48).trans ?_
    rw [extractLsb'_append_high, extractLsb'_append_high, BitVec.extractLsb'_eq_self]
  · refine (hbits (3 + 0) 40).trans ?_
    rw [extractLsb'_append_high, extractLsb'_append_low]
  · exact (hbits 0 3).trans (extractLsb'_append_low _ _)
  · exact (((getLsbD_append_high _ _ 3).trans (getLsbD_append_high _ _ 2)).trans (getLsbD_append_high _ _ 1)).trans
      ((getLsbD_append_high _ _ 0).trans (getLsbD_append_ofBool _ _))
  · exact (((getLsbD_append_high _ _ 2).trans (getLsbD_append_high _ _ 1)).trans (getLsbD_append_high _ _ 0)).trans
      (getLsbD_append_ofBool _ _)
  · exact ((getLsbD_append_high _ _ 1).trans (getLsbD_append_high _ _ 0)).trans (getLsbD_append_ofBool _ _)
  · exact (getLsbD_append_high _ _ 0).trans (getLsbD_append_ofBool _ _)

theorem civilInForce_of_selected {s : State} {r : SourceRec} (h : s.selected = some r) :
    s.civilInForce = if r.civilValid then (r.civil, true) else (s.civil, false) := by
  rw [State.civilInForce, h]

theorem civilInForce_of_none {s : State} (h : s.selected = none) : s.civilInForce = (s.civil, false) := by
  rw [State.civilInForce, h]

theorem composeBits_fields (s : State) (n : Fin 8) (k e : Nat) (seen : Bool) :
    (composeBits s n k e seen).extractLsb' 48 48 = BitVec.ofInt 48 ((e / 10 ^ 9 : Nat) + s.civilInForce.1) ∧
      (composeBits s n k e seen).extractLsb' 8 40 = BitVec.ofNat 40 k ∧
      (composeBits s n k e seen).extractLsb' 5 3 = BitVec.ofNat 3 n ∧
      (composeBits s n k e seen).getLsbD 4 = s.servo.locked ∧ (composeBits s n k e seen).getLsbD 3 = s.servo.traced ∧
      (composeBits s n k e seen).getLsbD 2 = seen ∧
      (composeBits s n k e seen).getLsbD 1 = decide (s.clock ≠ .normal) ∧
      (composeBits s n k e seen).getLsbD 0 = s.civilInForce.2 := by
  unfold composeBits
  exact wordFields _ _ _ _ _ _ _ _

/-! ### Shifting (R168, R169) -/

section
variable {c : LabelCfg} {x : Serializer}

theorem outputs_of_disabled (h : c.enable = false) : x.outputs c = (false, false) := if_pos h

theorem outputs_of_no_word (h : c.enable = true) (hw : x.word = none) : x.outputs c = (false, decide (c.edge = .falling)) := by
  rw [Serializer.outputs, h, hw]
  rfl

theorem outputs_of_word {w : LabelWord} (h : c.enable = true) (hw : x.word = some w) :
    x.outputs c =
      if w.count < c.delay ∨ w.isDone c then (false, decide (c.edge = .falling))
      else
        (w.bits.getMsbD ((w.count - c.delay) / c.period),
          if (w.count - c.delay) % c.period < c.period / 2 then decide (c.edge = .falling)
          else !decide (c.edge = .falling)) := by
  rw [Serializer.outputs, h, hw]
  rfl

end

/-- Settles O48. -/
theorem labelWordsAreComposedAndShifted : Obligations.LabelWordsAreComposedAndShifted := by
  refine ⟨fun s n k e seen => ?_, fun c x w hw hen => ⟨fun hout => ?_, fun i j hi hj hcount => ?_⟩,
    fun c x => ⟨outputs_of_disabled, outputs_of_no_word⟩, fun m s => ⟨fun w hw hdone => ?_, fun hshift => ?_⟩⟩
  · obtain ⟨htime, hindex, hcad, hlocked, htraced, hseen, hbackup, hcivil⟩ := composeBits_fields s n k e seen
    intro w
    have hown : s.civilInForce = (s.civil, false) →
        w.extractLsb' 48 48 = BitVec.ofInt 48 ((e / 10 ^ 9 : Nat) + s.civil) ∧ w.getLsbD 0 = false := fun h => by
      rw [h] at htime hcivil
      exact ⟨htime, hcivil⟩
    refine ⟨fun r hr hvalid => ?_, fun h => hown ?_, ?_, ?_, hlocked, htraced, hseen, hbackup⟩
    · rw [civilInForce_of_selected hr, hvalid] at htime hcivil
      exact ⟨htime, hcivil⟩
    · rcases h with h | ⟨r, hr, hinvalid⟩
      · exact civilInForce_of_none h
      · rw [civilInForce_of_selected hr, hinvalid]
        rfl
    · exact (congrArg BitVec.toNat hindex).trans (BitVec.toNat_ofNat k 40)
    · exact (congrArg BitVec.toNat hcad).trans ((BitVec.toNat_ofNat n.val 3).trans (Nat.mod_eq_of_lt n.isLt))
  · rw [outputs_of_word hen hw]
    exact if_pos (hout.imp id isDone_iff.mpr)
  · have hbit : i * c.period + j < 96 * c.period :=
      calc i * c.period + j < i * c.period + c.period := by omega
        _ = (i + 1) * c.period := by ring
        _ ≤ 96 * c.period := Nat.mul_le_mul_right _ hi
    have hin : ¬ (w.count < c.delay ∨ w.isDone c = true) := by
      rw [isDone_iff]
      omega
    have hsub : w.count - c.delay = j + c.period * i := by
      rw [hcount, Nat.mul_comm c.period i]
      omega
    have hpos : 0 < c.period := by omega
    rw [outputs_of_word hen hw, if_neg hin, hsub, Nat.add_mul_div_left _ _ hpos, Nat.div_eq_of_lt hj, Nat.zero_add,
      Nat.add_mul_mod_self_left, Nat.mod_eq_of_lt hj]
  · refine congrArg Host.Outcome.next ?_
    rw [completeWord, hw]
    exact if_pos (isDone_iff.mpr hdone)
  · refine congrArg Host.Outcome.next ?_
    unfold completeWord
    split
    · rename_i w hw
      exact if_neg fun hd => Nat.not_lt.mpr (isDone_iff.mp hd) (hshift w hw)
    · rfl

end Sys2Proof.Machine
end

section
/-!
PROOFS. The capture lines (R178 to R182).
-/

namespace Sys2Proof.Machine

theorem State.setCap_setCap (s : State) (n : Fin 4) (x y : CapLine) : (s.setCap n x).setCap n y = s.setCap n y := by
  unfold State.setCap
  rw [Vector.set_set]

theorem State.setCap_self (s : State) (n : Fin 4) (x : CapLine) : (s.setCap n x).cap[n] = x := by
  rw [State.setCap_get, if_pos rfl]

/-! ### Candidates (R178) -/

section
variable {n : Fin 4} {s : State} {a : Bool}

theorem captureInputChange_of_steady
    (h : s.cap[n].qual = .idle ∨ s.cap[n].qual = .seeding ∨ (s.cap[n].qual = .live a none ∧ s.cap[n].sample = a) ∨
      ∃ c, s.cap[n].qual = .live a (some c) ∧ s.cap[n].sample ≠ a) : captureInputChange n s = s := by
  rcases h with hq | hq | ⟨hq, hs⟩ | ⟨c, hq, hs⟩
  · simp only [captureInputChange, hq]
  · simp only [captureInputChange, hq]
  · simp only [captureInputChange, hq]
    exact if_neg (not_not.mpr hs)
  · simp only [captureInputChange, hq]
    exact if_neg hs

theorem captureInputChange_of_changed (hq : s.cap[n].qual = .live a none) (hs : s.cap[n].sample ≠ a) :
    captureInputChange n s =
      s.setCap n
        { s.cap[n] with
          qual := .live a (some { level := s.cap[n].sample, stamp := stampNow s.cap[n].sample s, run := 0 }) } := by
  simp only [captureInputChange, hq]
  exact if_pos hs

theorem captureInputChange_of_back {c : Cand} (hq : s.cap[n].qual = .live a (some c)) (hs : s.cap[n].sample = a) :
    captureInputChange n s = s.setCap n { s.cap[n] with qual := .live a none } := by
  simp only [captureInputChange, hq]
  exact if_pos hs

theorem captureAccept_of_waiting
    (h : s.cap[n].qual = .idle ∨ s.cap[n].qual = .seeding ∨ s.cap[n].qual = .live a none ∨
      ∃ c, s.cap[n].qual = .live a (some c) ∧ (s.cap[n].sample ≠ c.level ∨ c.run < s.capRec[n].qual)) :
    captureAccept n s = s := by
  rcases h with hq | hq | hq | ⟨c, hq, hs⟩
  · simp only [captureAccept, hq]
  · simp only [captureAccept, hq]
  · simp only [captureAccept, hq]
  · simp only [captureAccept, hq]
    refine if_neg fun ⟨hrun, hlevel⟩ => ?_
    rcases hs with hs | hs
    · exact hs hlevel
    · exact Nat.not_lt.mpr hrun hs

theorem captureAccept_of_reached {c : Cand} (hq : s.cap[n].qual = .live a (some c)) (hs : s.cap[n].sample = c.level)
    (hrun : s.capRec[n].qual ≤ c.run) :
    captureAccept n s =
      if s.capRec[n].sel.names c.level then
        comparePhase n c.stamp (storeStamp n c.stamp (s.setCap n { s.cap[n] with qual := .live c.level none }))
      else s.setCap n { s.cap[n] with qual := .live c.level none } := by
  simp only [captureAccept, hq]
  exact if_pos ⟨hrun, hs⟩

end

theorem names_eq (e : EdgeSel) (level : Bool) :
    e.names level = (decide (e = .both) || (decide (e = .rising) && level) || (decide (e = .falling) && !level)) := by
  cases e <;> cases level <;> rfl

/-! ### The ring (R181, R182) -/

section
variable {n : Fin 4} {st : CapStamp} {s : State}

theorem storeStamp_of_full (h : s.cap[n].st = .full) : storeStamp n st s = s := by
  simp only [storeStamp, h]

theorem storeStamp_of_continuous (h : s.cap[n].st = .run) (hm : s.capRec[n].mode = .continuous) :
    storeStamp n st s =
      raiseIf (decide (4 ≤ s.cap[n].ring.length)) (.captureFull n)
        (s.setCap n { s.cap[n] with ring := pushNewest 4 st s.cap[n].ring }) := by
  simp only [storeStamp, h, hm]

theorem storeStamp_of_oneShot (h : s.cap[n].st = .run) (hm : s.capRec[n].mode = .oneShot) :
    storeStamp n st s =
      if 4 ≤ s.cap[n].ring.length + 1 then
        raise (.captureFull n) (s.setCap n { s.cap[n] with ring := pushNewest 4 st s.cap[n].ring, st := .full })
      else s.setCap n { s.cap[n] with ring := pushNewest 4 st s.cap[n].ring } := by
  simp only [storeStamp, h, hm]

/-- A ring with room takes the stamp as its newest, whatever the ring mode, but for the fourth of ONE_SHOT mode. -/
theorem storeStamp_of_room (h : s.cap[n].st = .run) (hroom : s.cap[n].ring.length < 3 ∨
      s.cap[n].ring.length = 3 ∧ s.capRec[n].mode = .continuous) :
    storeStamp n st s = s.setCap n { s.cap[n] with ring := s.cap[n].ring ++ [st] } := by
  have hpush : pushNewest 4 st s.cap[n].ring = s.cap[n].ring ++ [st] := pushNewest_of_room 4 st _ (by omega)
  cases hm : s.capRec[n].mode with
  | continuous =>
    rw [storeStamp_of_continuous h hm, decide_eq_false (by omega), raiseIf_false, hpush]
  | oneShot =>
    have hlow : s.cap[n].ring.length < 3 := hroom.resolve_right fun hr => by rw [hm] at hr; cases hr.2
    rw [storeStamp_of_oneShot h hm, if_neg (by omega), hpush]

end

/-- Settles O49. -/
theorem captureMakesAndAccepts : Obligations.CaptureMakesAndAccepts := by
  intro n s a x
  refine ⟨fun h => congrArg Host.Outcome.next (captureInputChange_of_steady h),
    fun h => congrArg Host.Outcome.next (captureAccept_of_waiting h), fun inp c hno hsel hq => ?_,
    fun hq hs => congrArg Host.Outcome.next (captureInputChange_of_changed hq hs),
    fun c hq hs => congrArg Host.Outcome.next (captureInputChange_of_back hq hs), fun c hq hs hrun => ?_⟩
  · refine ⟨tickAll inp s, rfl, ?_⟩
    rw [tickAll_cap hno, CapLine.tick_of_used hsel]
    show Qualifier.tick _ x.qual = _
    rw [hq, Qualifier.tick]
    by_cases hlevel : c.level = inp.cap[n]
    · rw [if_pos hlevel, if_pos hlevel.symm]
    · rw [if_neg hlevel, if_neg fun h => hlevel h.symm]
  intro named y takes
  have haccept := captureAccept_of_reached hq hs hrun
  rw [names_eq] at haccept
  have hself : (s.setCap n y).cap[n] = y := s.setCap_self n y
  have hrec : (s.setCap n y).capRec[n] = s.capRec[n] := by simp only [State.setCap_capRec]
  have hset : ∀ z, (s.setCap n y).setCap n z = s.setCap n z := s.setCap_setCap n y
  have htakes : ∀ u, named = true → storeStamp n c.stamp (s.setCap n y) = u → takes u := fun u hn hu =>
    congrArg Host.Outcome.next (hu ▸ haccept.trans (if_pos hn))
  have hroom : x.st = .run → (x.ring.length < 3 ∨ x.ring.length = 3 ∧ s.capRec[n].mode = .continuous) →
      storeStamp n c.stamp (s.setCap n y) = s.setCap n { y with ring := x.ring ++ [c.stamp] } := fun hst hlen => by
    rw [storeStamp_of_room (by rw [hself]; exact hst) (by rw [hself, hrec]; exact hlen), hself, hset]
  refine ⟨fun hn => congrArg Host.Outcome.next (haccept.trans (if_neg (Bool.eq_false_iff.mp hn))),
    fun hn hst hlen => htakes _ hn (hroom hst (.inl hlen)), fun hn hst hlen hm => htakes _ hn (hroom hst (.inr ⟨hlen, hm⟩)),
    fun hn hst hlen hm => htakes _ hn ?_, fun hn hst hlen hm => htakes _ hn ?_, fun hn hst => htakes _ hn ?_⟩
  · have hring : y.ring.length = 4 := hlen
    rw [storeStamp_of_continuous (by rw [hself]; exact hst) (by rw [hrec, hm]), hself, hset, hring,
      pushNewest_of_full hring (by decide)]
    rfl
  · have hring : y.ring.length = 3 := hlen
    rw [storeStamp_of_oneShot (by rw [hself]; exact hst) (by rw [hrec, hm]), hself, hset, hring,
      pushNewest_of_room 4 _ _ (by omega)]
    rfl
  · exact storeStamp_of_full (by rw [hself]; exact hst)

end Sys2Proof.Machine
end

section
/-!
PROOFS. ARM_ONESHOT, DISARM_ONESHOT and SWITCH_BANK, row by row (R130, R131, R148 to R151).
-/

namespace Sys2Proof.Machine

/-- A request that is carried out is answered as its command's core answers it. -/
theorem serve_answers {c : Command} {core : List Byte → State → Reply} {s : State} {r : Request} {rest : List Request}
    {a : Reply} (hc : s.carriesOut c r rest) (h : core r.body { s with requests := rest } = a) :
    serve c core s = respond r a :=
  (serve_carriesOut c core s r rest hc).trans (congrArg (respond r) h)

theorem switchWaitsOn_iff {s : State} {n : Fin 8} : switchWaitsOn s n = true ↔ ∃ q ∈ s.switch, q.trigger = .atEdge n := by
  unfold switchWaitsOn
  cases s.switch with
  | none => exact ⟨fun h => absurd h Bool.false_ne_true, fun ⟨q, hq, _⟩ => nomatch hq⟩
  | some q => exact beq_iff_eq.trans ⟨fun h => ⟨q, rfl, h⟩, fun ⟨_, hx, h⟩ => Option.some.inj hx ▸ h⟩

theorem not_switchWaitsOn {s : State} {n : Fin 8} (h : ¬ ∃ q ∈ s.switch, q.trigger = .atEdge n) :
    ¬ switchWaitsOn s n = true := fun hw => h (switchWaitsOn_iff.mp hw)

theorem limitNs_le_iff {t : Nat} : limitNs ≤ t ↔ 2 ^ 48 * 10 ^ 9 ≤ t := by rw [limitNs]

/-! ### ARM_ONESHOT and DISARM_ONESHOT -/

section
variable {body : List Byte} {s : State} {n : Fin 8}

theorem armCore_of_outside (h : 8 ≤ (byteAt body 0).toNat) : armCore body s = plain .badIndex s := by
  simp only [armCore, finOf_of_le h]

theorem armCore_eq (h : (byteAt body 0).toNat = n.val) :
    armCore body s =
      if switchWaitsOn s n then plain .switchPending s
      else if (s.cadRec n).mode ≠ .oneShot then plain .wrongState s
      else if limitNs ≤ (s.cadRec n).edgeTime (fieldAt body 1 10) then plain .badValue s
      else if s.atOrPast ((s.cadRec n).edgeTime (fieldAt body 1 10)) then plain .tooLate s
      else
        plain .ok
          (settleTick
            (s.setCad n
              { s.cad[n] with st := .armed (fieldAt body 1 10) ((s.cadRec n).edgeTime (fieldAt body 1 10)) })) := by
  simp only [armCore, h, finOf_val]

theorem disarmCore_of_outside (h : 8 ≤ (byteAt body 0).toNat) : disarmCore body s = plain .badIndex s := by
  simp only [disarmCore, finOf_of_le h]

theorem disarmCore_eq (h : (byteAt body 0).toNat = n.val) :
    disarmCore body s =
      if switchWaitsOn s n then plain .switchPending s
      else if (s.cadRec n).mode ≠ .oneShot then plain .wrongState s
      else plain .ok (settleTick (s.setCad n { s.cad[n] with st := .idle })) := by
  simp only [disarmCore, h, finOf_val]

end

/-- Settles O44. -/
theorem armingFollowsItsTable : Obligations.ArmingFollowsItsTable := by
  intro s r rest s1 reply
  refine ⟨fun hc => ⟨fun h => congrArg Host.Outcome.next (serve_answers hc (armCore_of_outside h)), fun n hn => ?_⟩,
    fun hc => ⟨fun h => congrArg Host.Outcome.next (serve_answers hc (disarmCore_of_outside h)), fun n hn => ?_⟩⟩
  · have harm : ∀ {a : Reply}, armCore r.body s1 = a → exec .armOneshot s = .next (respond r a) := fun h =>
      congrArg Host.Outcome.next (serve_answers hc h)
    have hcore := armCore_eq (s := s1) hn
    intro c k waits
    refine ⟨fun hw => harm ?_, fun hw hm => harm ?_, fun hw hm ht => harm ?_, fun hw hm ht hpast => harm ?_,
      fun hw hm ht hahead => harm ?_⟩
    · exact hcore.trans (if_pos (switchWaitsOn_iff.mpr hw))
    · exact hcore.trans ((if_neg (not_switchWaitsOn hw)).trans (if_pos hm))
    · exact hcore.trans ((if_neg (not_switchWaitsOn hw)).trans ((if_neg (not_not.mpr hm)).trans (if_pos (limitNs_le_iff.mpr ht))))
    · exact hcore.trans ((if_neg (not_switchWaitsOn hw)).trans ((if_neg (not_not.mpr hm)).trans
        ((if_neg fun h => Nat.not_lt.mpr (limitNs_le_iff.mp h) ht).trans (if_pos (atOrPast_iff.mpr hpast)))))
    · exact hcore.trans ((if_neg (not_switchWaitsOn hw)).trans ((if_neg (not_not.mpr hm)).trans
        ((if_neg fun h => Nat.not_lt.mpr (limitNs_le_iff.mp h) ht).trans
          (if_neg (Bool.eq_false_iff.mp (not_atOrPast_iff.mpr hahead))))))
  · have hdisarm : ∀ {a : Reply}, disarmCore r.body s1 = a → exec .disarmOneshot s = .next (respond r a) := fun h =>
      congrArg Host.Outcome.next (serve_answers hc h)
    have hcore := disarmCore_eq (s := s1) hn
    intro waits
    refine ⟨fun hw => hdisarm ?_, fun hw hm => hdisarm ?_, fun hw hm => hdisarm ?_⟩
    · exact hcore.trans (if_pos (switchWaitsOn_iff.mpr hw))
    · exact hcore.trans ((if_neg (not_switchWaitsOn hw)).trans (if_pos hm))
    · exact hcore.trans ((if_neg (not_switchWaitsOn hw)).trans (if_neg (not_not.mpr hm)))

/-! ### SWITCH_BANK -/

section
variable {body : List Byte} {s : State} {b : Fin 4}

theorem switchBankCore_of_outside (h : 4 ≤ (byteAt body 0).toNat) : switchBankCore body s = plain .badIndex s := by
  simp only [switchBankCore, finOf_of_le h]

variable (h : (byteAt body 0).toNat = b.val)
include h

theorem switchBankCore_of_badTrigger (h1 : (byteAt body 1).toNat ≠ 1) (h2 : (byteAt body 1).toNat ≠ 2) :
    switchBankCore body s = plain .badValue s := by
  have htrig : triggerByteOk (byteAt body 1).toNat = false := decide_eq_false (not_or.mpr ⟨h1, h2⟩)
  simp only [switchBankCore, h, finOf_val, htrig, if_true]

variable (htrig : (byteAt body 1).toNat = 1 ∨ (byteAt body 1).toNat = 2)
include htrig

theorem switchBankCore_of_pending {q : SwitchReq} (hq : s.switch = some q) :
    switchBankCore body s =
      if b ≠ s.active then plain .switchPending s
      else if q.due then plain .tooLate s
      else plain .ok (settleTick { s with switch := none }) := by
  have hok : ¬ triggerByteOk (byteAt body 1).toNat = false := by
    rw [triggerByteOk, decide_eq_true htrig]
    exact Bool.noConfusion
  simp only [switchBankCore, h, finOf_val, hq, if_neg hok]

theorem switchBankCore_of_none (hq : s.switch = none) :
    switchBankCore body s =
      if b = s.active then plain .ok s
      else acceptSwitch b (byteAt body 1).toNat (byteAt body 2).toNat (fieldAt body 3 6) (fieldAt body 9 4) s := by
  have hok : ¬ triggerByteOk (byteAt body 1).toNat = false := by
    rw [triggerByteOk, decide_eq_true htrig]
    exact Bool.noConfusion
  simp only [switchBankCore, h, finOf_val, hq, if_neg hok]

end

theorem hasEdge_iff {s : State} {c : Fin 8} :
    hasEdge s c = true ↔ ∃ k e, s.cad[c].st = .running k e ∨ s.cad[c].st = .armed k e := by
  unfold hasEdge CadState.held
  cases s.cad[c].st <;> simp

theorem acceptSwitch_of_outside {b : Fin 4} {trig cad sec ns : Nat} {s : State} (h1 : trig = 1) (hcad : 8 ≤ cad) :
    acceptSwitch b trig cad sec ns s = plain .badIndex s := by
  simp only [acceptSwitch, if_pos h1, finOf_of_le hcad]

theorem acceptSwitch_of_edge {b : Fin 4} {trig cad sec ns : Nat} {s : State} {c : Fin 8} (h1 : trig = 1) (hcad : cad = c.val) :
    acceptSwitch b trig cad sec ns s =
      if hasEdge s c then
        plain .ok { s with switch := some { target := b, trigger := .atEdge c, due := false, dueTick := false } }
      else plain .wrongState s := by
  simp only [acceptSwitch, if_pos h1, hcad, finOf_val]

/-- Settles O45. -/
theorem switchRequestsAreAnswered : Obligations.SwitchRequestsAreAnswered := by
  intro s r rest hc s1 reply trig sec ns
  have hserve : ∀ {a : Reply}, switchBankCore r.body s1 = a → exec .switchBank s = .next (respond r a) := fun h =>
    congrArg Host.Outcome.next (serve_answers hc h)
  refine ⟨fun h => hserve (switchBankCore_of_outside h), fun b hb =>
    ⟨fun h1 h2 => hserve (switchBankCore_of_badTrigger hb h1 h2), fun htrig => ⟨fun q hq => ?_, fun hnone => ?_⟩⟩⟩
  · have hcore := switchBankCore_of_pending (s := s1) hb htrig hq
    refine ⟨fun hne => hserve (hcore.trans (if_pos hne)),
      fun heq hdue => hserve (hcore.trans ((if_neg (not_not.mpr heq)).trans (if_pos hdue))),
      fun heq hdue => hserve (hcore.trans ((if_neg (not_not.mpr heq)).trans (if_neg (Bool.eq_false_iff.mp hdue))))⟩
  · have hcore := switchBankCore_of_none (s := s1) hb htrig hnone
    refine ⟨fun heq => hserve (hcore.trans (if_pos heq)), fun hne h1 => ⟨fun hcad => ?_, fun c hcad => ?_⟩,
      fun hne h2 => ⟨fun hns => ?_, fun hns => ?_⟩⟩
    · exact hserve (hcore.trans ((if_neg hne).trans (acceptSwitch_of_outside h1 hcad)))
    · intro q
      have haccept : switchBankCore r.body s1 = if hasEdge s1 c then plain .ok { s1 with switch := some q } else plain .wrongState s1 :=
        hcore.trans ((if_neg hne).trans (acceptSwitch_of_edge h1 hcad))
      refine ⟨fun hedge => hserve (haccept.trans (if_pos (hasEdge_iff.mpr hedge))),
        fun hedge => hserve (haccept.trans (if_neg fun he => ?_))⟩
      obtain ⟨k, e, hst⟩ := hasEdge_iff.mp he
      exact hst.elim (hedge k e).1 (hedge k e).2
    · have h1 : ¬ (byteAt r.body 1).toNat = 1 := fun h1 => absurd (h1.symm.trans h2) (by decide)
      exact hserve (hcore.trans ((if_neg hne).trans ((if_neg h1).trans (if_pos hns))))
    · have h1 : ¬ (byteAt r.body 1).toNat = 1 := fun h1 => absurd (h1.symm.trans h2) (by decide)
      exact hserve (hcore.trans ((if_neg hne).trans ((if_neg h1).trans (if_neg (Nat.not_le.mpr hns)))))

end Sys2Proof.Machine
end

section
/-!
PROOFS. The tables a manager writes: their identifiers and sizes, and the order in which WRITE_TABLE applies its entries
(R199, R200).
-/

namespace Sys2Proof.Machine

/-! ### The identifiers of the tables -/

theorem tableOf_of_outside {i bank : Nat} (h : i = 0 ∨ 11 < i) : tableOf i bank = none := by
  rcases h with rfl | h
  · rfl
  · obtain ⟨j, rfl⟩ := Nat.exists_eq_add_of_lt h
    rw [show 11 + j + 1 = j + 12 by omega]
    rfl

theorem tableOf_of_bank_outside {bank : Nat} (h : 4 ≤ bank) :
    tableOf 5 bank = none ∧ tableOf 6 bank = none ∧ tableOf 7 bank = none := by
  simp only [tableOf, finOf_of_le h, Option.map_none, and_self]

theorem tableOf_of_bank (k : Fin 4) :
    tableOf 5 k.val = some (.cadence k) ∧ tableOf 6 k.val = some (.lines k) ∧ tableOf 7 k.val = some (.labels k) := by
  simp only [tableOf, finOf_val, Option.map_some, and_self]

/-! ### The checks of R199 -/

section
variable {writing : Bool} {body : List Byte} {t : TableId}

theorem tableCheck_of_none (h : tableOf (byteAt body 0).toNat (byteAt body 1).toNat = none) :
    tableCheck writing body = .inr .badTable := by
  simp only [tableCheck, h]

theorem tableCheck_of_some (h : tableOf (byteAt body 0).toNat (byteAt body 1).toNat = some t) :
    tableCheck writing body =
      if writing = true ∧ t = .sources then .inr .badTable
      else if t.entries ≤ (byteAt body 2).toNat ∨ t.entries < (byteAt body 2).toNat + (byteAt body 3).toNat then
        .inr .badIndex
      else if writing = true ∧ body.length - 4 < (byteAt body 3).toNat * t.size then .inr .badValue else .inl t := by
  simp only [tableCheck, h]

theorem writeTableCore_of_failed {s : State} {st : Status} (h : tableCheck true body = .inr st) :
    writeTableCore body s = { st := st, body := refWithCount body 0, after := s } := by
  simp only [writeTableCore, h]

theorem writeTableCore_of_passed {s : State} (h : tableCheck true body = .inl t) :
    writeTableCore body s =
      let r := writeEntries t (byteAt body 2).toNat (chunks t.size (byteAt body 3).toNat (body.drop 4)) 0 false s
      { st := r.st, body := refWithCount body r.count, after := r.after } := by
  simp only [writeTableCore, h]

end

/-- A request that is carried out has a body of at least the length its command needs. -/
theorem State.carriesOut.body_length {s : State} {c : Command} {r : Request} {rest : List Request}
    (h : s.carriesOut c r rest) : c.bodySize ≤ r.body.length := by
  obtain ⟨-, -, -, hsize, hlen, -⟩ := h
  rw [Request.body, slice, List.length_take, List.length_drop]
  omega

/-! ### The entries, one at a time -/

/-- After `j` applied entries the writing goes on with the entry at index `start + j`, in the state they leave. -/
theorem writeEntries_reaches {t : TableId} {start count k : Nat} {body : List Byte} {u : Nat → State} {c : Nat → Bool}
    (hk : k ≤ count)
    (happlied : ∀ i < k,
      writeEntry t (start + i) (slice body (4 + i * t.size) t.size) (u i) = .applied (c i) (u (i + 1)))
    (j : Nat) (hj : j ≤ k) :
    writeEntries t start (chunks t.size count (body.drop 4)) 0 false (u 0) =
      writeEntries t (start + j) (chunks t.size (count - j) (body.drop (4 + j * t.size))) j ((List.range j).any c)
        (u j) := by
  induction j with
  | zero => simp
  | succ j ih =>
    have hrest : body.drop (4 + (j + 1) * t.size) = (body.drop (4 + j * t.size)).drop t.size := by
      rw [List.drop_drop, Nat.succ_mul, Nat.add_assoc]
    have happly := happlied j (by omega)
    rw [slice] at happly
    rw [ih (by omega), show count - j = (count - (j + 1)) + 1 by omega, hrest, chunks, writeEntries, happly,
      List.range_succ]
    simp [Nat.add_assoc]

theorem writeEntries_all {t : TableId} {start k : Nat} {body : List Byte} {u : Nat → State} {c : Nat → Bool}
    (happlied : ∀ i < k,
      writeEntry t (start + i) (slice body (4 + i * t.size) t.size) (u i) = .applied (c i) (u (i + 1))) :
    writeEntries t start (chunks t.size k (body.drop 4)) 0 false (u 0) =
      { st := if (List.range k).any c then .clamped else .ok, count := k, after := u k } := by
  rw [writeEntries_reaches (Nat.le_refl k) happlied k (Nat.le_refl k), Nat.sub_self, chunks, writeEntries]

theorem writeEntries_refused {t : TableId} {start count k : Nat} {body : List Byte} {u : Nat → State} {c : Nat → Bool}
    {st : Status} (hk : k < count)
    (happlied : ∀ i < k,
      writeEntry t (start + i) (slice body (4 + i * t.size) t.size) (u i) = .applied (c i) (u (i + 1)))
    (hrefused : writeEntry t (start + k) (slice body (4 + k * t.size) t.size) (u k) = .refused st) :
    writeEntries t start (chunks t.size count (body.drop 4)) 0 false (u 0) = { st := st, count := k, after := u k } := by
  rw [slice] at hrefused
  rw [writeEntries_reaches hk.le happlied k (Nat.le_refl k), show count - k = (count - (k + 1)) + 1 by omega, chunks,
    writeEntries, hrefused]

/-- Settles O54: the identifiers by cases, the entries by induction on how many have been applied. -/
theorem writeTableAppliesInOrder : Obligations.WriteTableAppliesInOrder := by
  refine ⟨⟨fun bank => ⟨rfl, fun _ => tableOf_of_outside, tableOf_of_bank_outside⟩,
    fun k => ⟨tableOf_of_bank k, rfl⟩⟩, ?_⟩
  intro s r rest hc s1 body start count reply named
  have hanswer : ∀ {a : Reply}, writeTableCore body s1 = a → exec .writeTable s = .next (respond r a) := fun h =>
    congrArg Host.Outcome.next (serve_answers hc h)
  have hfail : ∀ {st : Status}, tableCheck true body = .inr st → exec .writeTable s = .next (reply st 0 s1) := fun h =>
    hanswer (writeTableCore_of_failed h)
  refine ⟨fun h => hfail ?_, fun t ht hsources => ?_⟩
  · rcases h with h | h
    · exact tableCheck_of_none h
    · exact (tableCheck_of_some h).trans (if_pos ⟨rfl, rfl⟩)
  have hcheck := (tableCheck_of_some (writing := true) ht).trans (if_neg fun h => hsources h.2)
  refine ⟨fun h => hfail (hcheck.trans (if_pos h)), fun hstart hcount => ?_⟩
  have hrange := hcheck.trans (if_neg (by omega))
  have hlen : 4 ≤ body.length := hc.body_length
  have hshort (h : body.length < 4 + count * t.size) : body.length - 4 < count * t.size := by omega
  refine ⟨fun h => hfail (hrange.trans (if_pos ⟨rfl, hshort h⟩)), fun h => ?_⟩
  have hlong : ¬ body.length - 4 < count * t.size := by omega
  have hpass := writeTableCore_of_passed (s := s1) (hrange.trans (if_neg fun hshort => hlong hshort.2))
  intro k u c hk hu happlied
  rw [← hu] at hpass
  refine ⟨fun hall => ?_, fun st hlt hrefused => ?_⟩
  · subst hall
    refine hanswer (hu ▸ hpass.trans ?_)
    rw [writeEntries_all happlied]
    rfl
  · refine hanswer (hu ▸ hpass.trans ?_)
    rw [writeEntries_refused hlt happlied hrefused]
    rfl

end Sys2Proof.Machine
end

section
/-!
PROOFS. What IDENTIFY, READ_STATUS, READ_TABLE and READ_CAPTURE answer (R185, R197, R199, R202).
-/

namespace Sys2Proof.Machine

/-! ### Fields at the head of a list of bytes -/

@[simp] theorem fieldAt_beBytes_self (n v : Nat) : fieldAt (beBytes n v) 0 n = v % 256 ^ n := by
  rw [fieldAt, slice_self _ (by rw [beBytes_length]), beNat_beBytes]

theorem signedOf_unsigned_field_of_range {n : Nat} {z : Int} (hn : 0 < n) (hlow : -2 ^ (8 * n - 1) ≤ z)
    (hhigh : z < 2 ^ (8 * n - 1)) : signedOf (8 * n) (unsignedOf (8 * n) z % 256 ^ n) = z := by
  have hpow : 256 ^ n = 2 ^ (8 * n) := by rw [Nat.pow_mul]
  rw [hpow, Nat.mod_eq_of_lt (unsignedOf_lt _ _)]
  exact signedOf_unsignedOf (by omega) hlow hhigh

theorem signedOf_unsigned_field {n : Nat} {z : Int} (hn : 0 < n) (h : z.natAbs < 2 ^ (8 * n - 1)) :
    signedOf (8 * n) (unsignedOf (8 * n) z % 256 ^ n) = z := by
  have habs : (z.natAbs : Int) < 2 ^ (8 * n - 1) := by exact_mod_cast h
  exact signedOf_unsigned_field_of_range hn (by omega) (by omega)

theorem flagByte_eq_one_iff {b : Bool} : flagByte b = 1#8 ↔ b = true := by
  cases b <;> decide

theorem toNat_ofNat_of_lt {n w : Nat} (h : n < 2 ^ w) : (BitVec.ofNat w n).toNat = n := by
  rw [BitVec.toNat_ofNat, Nat.mod_eq_of_lt h]

@[simp] theorem timeBytes_length (t : Nat) : (timeBytes t).length = 10 := by
  simp [timeBytes]

theorem timeBytes_of_lt {t : Nat} (h : t < 2 ^ 48 * 10 ^ 9) : timeBytes t = beBytes 6 (t / 10 ^ 9) ++ beBytes 4 (t % 10 ^ 9) := by
  simp only [timeBytes]
  rw [if_pos (Nat.div_lt_of_lt_mul (by omega))]

/-! ### The parts of READ_STATUS -/

@[simp] theorem selectedBody_length (s : State) : (selectedBody s).length = 11 := by
  unfold selectedBody
  split <;> simp

@[simp] theorem offsetBody_length (s : State) : (offsetBody s).length = 5 := by
  unfold offsetBody
  split <;> simp

@[simp] theorem switchBody_length (s : State) : (switchBody s).length = 35 := by
  unfold switchBody
  split
  · simp
  · split <;> simp

theorem bitsByte_two (x y : Bool) :
    (BitVec.ofNat 8 (bitsByte [x, y])).getLsbD 0 = x ∧ (BitVec.ofNat 8 (bitsByte [x, y])).getLsbD 1 = y := by
  cases x <;> cases y <;> decide

/-- Where each part of READ_STATUS stands in the body. -/
theorem statusBody_parts (s : State) :
    statusBody s =
      s.servo.st.code :: BitVec.ofNat 8 (bitsByte [s.servo.locked, s.servo.traced]) ::
        (selectedBody s ++ (offsetBody s ++ (beBytes 4 (unsignedOf 32 s.servo.a) ++
          (flagByte (decide (s.clock ≠ .normal)) :: BitVec.ofNat 8 s.active ::
            (switchBody s ++ ((allFour.map fun g => s.groups[g].pending) ++
              (timeBytes s.time.totalNs ++ beBytes 8 s.elapsed.toNat))))))) := by
  simp [statusBody]

theorem statusBody_length (s : State) : (statusBody s).length = 81 := by
  simp [statusBody_parts, allFour]

theorem statusBody_servo (s : State) :
    byteAt (statusBody s) 0 = s.servo.st.code ∧
      byteAt (statusBody s) 1 = BitVec.ofNat 8 (bitsByte [s.servo.locked, s.servo.traced]) := by
  simp [statusBody_parts]

theorem statusBody_selected (s : State) : slice (statusBody s) 2 11 = selectedBody s := by
  simp [statusBody_parts, slice_append_left, slice_self]

theorem statusBody_selected_of_some {s : State} {x : SourceRec} (h : s.selected = some x) :
    byteAt (statusBody s) 2 = 1#8 ∧ fieldAt (statusBody s) 3 8 = x.sender.toNat ∧
      fieldAt (statusBody s) 11 2 = x.portNo.toNat := by
  have hsel : selectedBody s = [1] ++ beBytes 8 x.sender.toNat ++ beBytes 2 x.portNo.toNat := by
    simp only [selectedBody, h]
  rw [statusBody_parts, hsel]
  refine ⟨by simp, ?_, ?_⟩
  · simpa using x.sender.isLt
  · simpa using x.portNo.isLt

theorem statusBody_offset (s : State) : slice (statusBody s) 13 5 = offsetBody s := by
  simp [statusBody_parts, slice_append_left, slice_self]

theorem statusBody_offset_of_some {s : State} {o : Offset} (h : s.exch.lastOffset = some o) :
    byteAt (statusBody s) 13 = 1#8 ∧
      (o.ns.natAbs < 2 ^ 31 → signedOf 32 (fieldAt (statusBody s) 14 4) = o.ns) := by
  have hoff : offsetBody s = [1] ++ beBytes 4 (unsignedOf 32 o.ns) := by simp only [offsetBody, h]
  rw [statusBody_parts, hoff]
  refine ⟨by simp, fun hns => ?_⟩
  rw [show fieldAt _ 14 4 = unsignedOf 32 o.ns % 256 ^ 4 by simp]
  exact signedOf_unsigned_field (n := 4) (by omega) hns

theorem statusBody_adjustment {s : State} (h : s.servo.a.natAbs ≤ 100000) :
    signedOf 32 (fieldAt (statusBody s) 18 4) = s.servo.a := by
  rw [statusBody_parts, show fieldAt _ 18 4 = unsignedOf 32 s.servo.a % 256 ^ 4 by simp]
  exact signedOf_unsigned_field (n := 4) (by omega) (by omega)

theorem statusBody_clock (s : State) : byteAt (statusBody s) 22 = 1#8 ↔ s.clock ≠ .normal := by
  rw [statusBody_parts, show byteAt _ 22 = flagByte (decide (s.clock ≠ .normal)) by simp]
  exact flagByte_eq_one_iff.trans decide_eq_true_iff

theorem statusBody_active (s : State) : (byteAt (statusBody s) 23).toNat = s.active.val := by
  rw [statusBody_parts, show byteAt _ 23 = BitVec.ofNat 8 s.active by simp]
  exact toNat_ofNat_of_lt (by omega)

theorem statusBody_switch (s : State) : slice (statusBody s) 24 35 = switchBody s := by
  simp [statusBody_parts, slice_append_left, slice_self]

theorem statusBody_pending (s : State) (g : Fin 4) : byteAt (statusBody s) (59 + g) = s.groups[g].pending := by
  rw [statusBody_parts]
  fin_cases g <;> simp [allFour]

theorem statusBody_time {s : State} (h : s.timeOk) :
    fieldAt (statusBody s) 63 6 = s.time.sec ∧ fieldAt (statusBody s) 69 4 = s.time.ns := by
  obtain ⟨hns, hsec⟩ := h
  rw [statusBody_parts, timeBytes_of_ok (by omega) (by omega)]
  refine ⟨?_, ?_⟩
  · simp [allFour]
    omega
  · simp [allFour]
    omega

theorem statusBody_elapsed (s : State) : fieldAt (statusBody s) 73 8 = s.elapsed.toNat := by
  rw [statusBody_parts]
  simpa [allFour] using s.elapsed.isLt

/-! ### The switch items -/

section
variable {s : State} {q : SwitchReq}

theorem switchBody_of_none (h : s.switch = none) : switchBody s = List.replicate 35 0 := by
  simp only [switchBody, h]

theorem switchBody_of_edge {c : Fin 8} (hq : s.switch = some q) (ht : q.trigger = .atEdge c) :
    switchBody s =
      [1, BitVec.ofNat 8 q.target, 1, BitVec.ofNat 8 c] ++ List.replicate 10 0 ++ [flagByte q.due] ++
        beBytes 10 ((s.cad[c].st.held.map Prod.fst).getD 0) ++ timeBytes ((s.cad[c].st.held.map Prod.snd).getD 0) := by
  simp only [switchBody, hq, ht]

theorem switchBody_of_time {sec ns : Nat} (hq : s.switch = some q) (ht : q.trigger = .atTime sec ns) :
    switchBody s =
      [1, BitVec.ofNat 8 q.target, 2, 0] ++ beBytes 6 sec ++ beBytes 4 ns ++ [flagByte q.due] ++ List.replicate 20 0 := by
  simp only [switchBody, hq, ht]

theorem statusBody_switch_target (hq : s.switch = some q) :
    byteAt (statusBody s) 24 = 1#8 ∧ (byteAt (statusBody s) 25).toNat = q.target.val ∧
      (byteAt (statusBody s) 38 = 1#8 ↔ q.due = true) := by
  have hbytes : byteAt (statusBody s) 24 = 1#8 ∧ byteAt (statusBody s) 25 = BitVec.ofNat 8 q.target ∧
      byteAt (statusBody s) 38 = flagByte q.due := by
    rw [statusBody_parts]
    cases ht : q.trigger with
    | atEdge c =>
      rw [switchBody_of_edge hq ht]
      simp
    | atTime sec ns =>
      rw [switchBody_of_time hq ht]
      simp
  obtain ⟨hpresent, htarget, hdue⟩ := hbytes
  rw [htarget, hdue]
  exact ⟨hpresent, toNat_ofNat_of_lt (by omega), flagByte_eq_one_iff⟩

theorem statusBody_switch_edge {c : Fin 8} (hq : s.switch = some q) (ht : q.trigger = .atEdge c) :
    byteAt (statusBody s) 26 = 1#8 ∧ (byteAt (statusBody s) 27).toNat = c.val ∧
      slice (statusBody s) 28 10 = List.replicate 10 0 := by
  rw [statusBody_parts, switchBody_of_edge hq ht]
  refine ⟨by simp, ?_, by simp; rfl⟩
  rw [show byteAt _ 27 = BitVec.ofNat 8 c by simp]
  exact toNat_ofNat_of_lt (by omega)

/-- The edge that the trigger cadence holds, as READ_STATUS gives it. -/
theorem statusBody_switch_held {c : Fin 8} {k e : Nat} (hq : s.switch = some q) (ht : q.trigger = .atEdge c)
    (hheld : s.cad[c].st.held = some (k, e)) (hk : k < 2 ^ 80) (he : e < 2 ^ 48 * 10 ^ 9) :
    fieldAt (statusBody s) 39 10 = k ∧ fieldAt (statusBody s) 49 6 = e / 10 ^ 9 ∧
      fieldAt (statusBody s) 55 4 = e % 10 ^ 9 := by
  rw [statusBody_parts, switchBody_of_edge hq ht, hheld, Option.map_some, Option.getD_some, Option.map_some,
    Option.getD_some, timeBytes_of_lt he]
  refine ⟨?_, ?_, ?_⟩
  · rw [show fieldAt _ 39 10 = k % 256 ^ 10 by simp]
    omega
  · rw [show fieldAt _ 49 6 = e / 10 ^ 9 % 256 ^ 6 by simp]
    omega
  · rw [show fieldAt _ 55 4 = e % 10 ^ 9 % 256 ^ 4 by simp]
    omega

theorem statusBody_switch_time {sec ns : Nat} (hq : s.switch = some q) (ht : q.trigger = .atTime sec ns) :
    byteAt (statusBody s) 26 = 2#8 ∧ byteAt (statusBody s) 27 = 0#8 ∧
      slice (statusBody s) 39 20 = List.replicate 20 0 ∧
      (sec < 2 ^ 48 → ns < 10 ^ 9 → fieldAt (statusBody s) 28 6 = sec ∧ fieldAt (statusBody s) 34 4 = ns) := by
  rw [statusBody_parts, switchBody_of_time hq ht]
  refine ⟨by simp, by simp, by simp; rfl, fun hsec hns => ⟨?_, ?_⟩⟩
  · rw [show fieldAt _ 28 6 = sec % 256 ^ 6 by simp]
    omega
  · rw [show fieldAt _ 34 4 = ns % 256 ^ 4 by simp]
    omega

end

/-! ### The reading commands -/

theorem statusBody_requests (s : State) (rest : List Request) : statusBody { s with requests := rest } = statusBody s :=
  rfl

theorem identityBody_eq (s : State) :
    identityBody s =
      [0x0B, 0x7A, 0x0A, 0x34, 1] ++ addrBytes s.station ++ [0x6A, 0x1C] ++ addrBytes s.station ++ [0, 1] := by
  simp only [identityBody, identity_bytes, List.append_assoc, addrBytes]
  rfl

theorem ServoState.code_toNat (x : ServoState) :
    x.code.toNat = (match x with | .free => 0 | .acquire => 1 | .track => 2 | .holdover => 3) := by
  cases x <;> rfl

theorem readEntries_eq_flatMap (t : TableId) (i n : Nat) (s : State) :
    readEntries t i n s = (List.range n).flatMap fun j => readEntry t (i + j) s := by
  induction n generalizing i with
  | zero => rfl
  | succ n ih =>
    rw [readEntries, ih, List.range_succ_eq_map, List.flatMap_cons, List.flatMap_map, Nat.add_zero]
    simp only [Nat.add_succ, Nat.succ_add, Nat.add_zero]

theorem take_four_eq_refWithCount {body : List Byte} (h : 4 ≤ body.length) :
    refWithCount body (byteAt body 3).toNat = body.take 4 := by
  match body, h with
  | a :: b :: c :: d :: _, _ => simp [refWithCount, byteAt]

section
variable {body : List Byte} {s : State}

theorem readTableCore_of_failed {st : Status} (h : tableCheck false body = .inr st) :
    readTableCore body s = { st := st, body := refWithCount body 0, after := s } := by
  simp only [readTableCore, h]

theorem readTableCore_of_passed {t : TableId} (h : tableCheck false body = .inl t) :
    readTableCore body s =
      { st := .ok
        body :=
          refWithCount body (byteAt body 3).toNat ++ readEntries t (byteAt body 2).toNat (byteAt body 3).toNat s
        after := s } := by
  simp only [readTableCore, h]

theorem readCaptureCore_of_outside (h : 4 ≤ (byteAt body 0).toNat) : readCaptureCore body s = plain .badIndex s := by
  simp only [readCaptureCore, finOf_of_le h]

theorem readCaptureCore_eq {n : Fin 4} (h : (byteAt body 0).toNat = n.val) :
    readCaptureCore body s =
      if byteAt body 1 = 0#8 then { st := .ok, body := captureBody s.cap[n], after := s }
      else if byteAt body 1 = 1#8 then
        { st := .ok, body := captureBody s.cap[n], after := s.setCap n s.cap[n].rearm }
      else plain .badValue s := by
  simp only [readCaptureCore, h, finOf_val]

end

/-- Settles O53: the bytes of each answer at their offsets, and the checks that refuse in their order. -/
theorem readingCommandsAnswer : Obligations.ReadingCommandsAnswer := by
  intro s r rest s1 body
  refine ⟨fun hc => ?_, fun hc => ⟨statusBody s, ?_, statusBody_length s, ?_⟩, fun hc => ?_, fun hc => ?_⟩
  · refine congrArg Host.Outcome.next (serve_answers hc ?_)
    exact congrArg (fun b => ({ st := .ok, body := b, after := s1 } : Reply)) (identityBody_eq s1)
  · refine congrArg Host.Outcome.next (serve_answers hc ?_)
    exact congrArg (fun b => ({ st := .ok, body := b, after := s1 } : Reply)) (statusBody_requests s rest)
  · have hservo := statusBody_servo s
    have hflags := bitsByte_two s.servo.locked s.servo.traced
    rw [hservo.1, hservo.2]
    refine ⟨ServoState.code_toNat _, hflags.1, hflags.2, fun h => ?_, fun x => statusBody_selected_of_some,
      fun h => ?_, fun o => statusBody_offset_of_some, statusBody_adjustment, statusBody_clock s,
      statusBody_active s, fun h => (statusBody_switch s).trans (switchBody_of_none h), fun q hq => ?_,
      statusBody_pending s, statusBody_time, statusBody_elapsed s⟩
    · rw [statusBody_selected, selectedBody, h]
    · rw [statusBody_offset, offsetBody, h]
    · obtain ⟨hpresent, htarget, hdue⟩ := statusBody_switch_target hq
      refine ⟨hpresent, htarget, hdue, fun c ht => ?_, fun sec ns => statusBody_switch_time hq⟩
      obtain ⟨hkind, hcad, hzero⟩ := statusBody_switch_edge hq ht
      refine ⟨hkind, hcad, hzero, fun k e hst hk he => statusBody_switch_held hq ht ?_ hk he⟩
      rcases hst with hst | hst <;> rw [hst, CadState.held]
  · have hanswer : ∀ {a : Reply}, readTableCore r.body s1 = a → exec .readTable s = .next (respond r a) := fun h =>
      congrArg Host.Outcome.next (serve_answers hc h)
    intro start count reply
    refine ⟨fun h => hanswer (readTableCore_of_failed (tableCheck_of_none h)), fun t ht => ?_⟩
    have hcheck := (tableCheck_of_some (writing := false) ht).trans (if_neg fun h => Bool.false_ne_true h.1)
    refine ⟨fun h => hanswer (readTableCore_of_failed (hcheck.trans (if_pos h))), fun hstart hcount => hanswer ?_⟩
    have hpass := (hcheck.trans (if_neg (by omega))).trans (if_neg fun h => Bool.false_ne_true h.1)
    rw [readTableCore_of_passed hpass, readEntries_eq_flatMap, take_four_eq_refWithCount hc.body_length]
  · have hanswer : ∀ {a : Reply}, readCaptureCore r.body s1 = a → exec .readCapture s = .next (respond r a) :=
      fun h => congrArg Host.Outcome.next (serve_answers hc h)
    refine ⟨fun h => hanswer (readCaptureCore_of_outside h), fun n hn => ?_⟩
    have hcore := readCaptureCore_eq (s := s1) hn
    intro x answer
    refine ⟨fun h => hanswer (hcore.trans (if_pos h)), fun h => hanswer ?_, fun h => hanswer ?_⟩
    · exact hcore.trans ((if_neg (by rw [h]; decide)).trans (if_pos h))
    · have hne : ∀ v : Byte, v.toNat < 2 → byteAt r.body 1 ≠ v := fun v hv hb => by
        have hlarge : 2 ≤ (byteAt r.body 1).toNat := h
        rw [hb] at hlarge
        omega
      exact hcore.trans ((if_neg (hne 0#8 (by decide))).trans (if_neg (hne 1#8 (by decide))))

end Sys2Proof.Machine
end

section
/-!
PROOFS. The agent: which request it begins, its checks, and where its response goes (R194 to R196, R209).
-/

namespace Sys2Proof.Machine

/-! ### Codes and the fields of a request -/

theorem commandOf_succ (i : Nat) :
    commandOf (i + 1) =
      [Command.identify, .readStatus, .readTable, .writeTable, .switchBank, .stepTime, .setTime, .setTrim, .armOneshot,
        .disarmOneshot, .readCapture, .clearEvents, .restart][i]? := by
  match i with
  | 0 | 1 | 2 | 3 | 4 | 5 | 6 | 7 | 8 | 9 | 10 | 11 | 12 => rfl
  | _ + 13 => rfl

theorem Request.data_eq (r : Request) :
    r.data = (contentOf r.bytes).drop (if fieldAt (contentOf r.bytes) 12 2 = 0x8100 then 18 else 14) := by
  by_cases h : fieldAt (contentOf r.bytes) 12 2 = 0x8100
  · rw [Request.data, (factsOf_tagged h).2.1, if_pos h]
  · rw [Request.data, (factsOf_untagged h).2.1, if_neg h]

/-! ### The requests that the agent begins -/

/-- Every command but RESTART is carried out by the agent through a core of its own. -/
theorem Command.exec_instr (c : Command) :
    (∃ core, ∀ s, exec c.instr s = .next (serve c core s)) ∨
      c = .restart ∧ ∀ s, exec c.instr s = .next (restartRequest s) := by
  cases c
  case restart => exact .inr ⟨rfl, fun _ => rfl⟩
  all_goals exact .inl ⟨_, fun _ => rfl⟩

section
variable {s : State} {c : Command} {core : List Byte → State → Reply} {r : Request} {rest : List Request} {st : Status}

theorem serve_of_busy (h : s.restart ≠ .idle ∨ s.requests = []) : serve c core s = s := by
  unfold serve
  split
  next _ _ hi hq => exact (h.elim (fun h => h hi) fun h => List.cons_ne_nil _ _ (hq.symm.trans h)).elim
  next => rfl

theorem restartRequest_of_busy (h : s.restart ≠ .idle ∨ s.requests = []) : restartRequest s = s := by
  unfold restartRequest
  split
  next _ _ hi hq => exact (h.elim (fun h => h hi) fun h => List.cons_ne_nil _ _ (hq.symm.trans h)).elim
  next => rfl

theorem badCommand_of_busy (h : s.restart ≠ .idle ∨ s.requests = []) : badCommand s = s := by
  unfold badCommand
  split
  next _ _ hi hq => exact (h.elim (fun h => h hi) fun h => List.cons_ne_nil _ _ (hq.symm.trans h)).elim
  next => rfl

theorem badCommand_of_idle (hi : s.restart = .idle) (hq : s.requests = r :: rest) :
    badCommand s =
      if commandOf r.code = none then respond r (plain .badCommand { s with requests := rest }) else s := by
  unfold badCommand
  split
  next _ _ _ h =>
    obtain ⟨rfl, rfl⟩ := List.cons.inj (h.symm.trans hq)
    rfl
  next h => exact absurd hq (h r rest hi)

theorem serve_of_other (hq : s.requests = r :: rest) (hc : commandOf r.code ≠ some c) : serve c core s = s := by
  unfold serve
  split
  next _ _ _ h =>
    obtain ⟨rfl, rfl⟩ := List.cons.inj (h.symm.trans hq)
    exact if_neg hc
  next => rfl

theorem restartRequest_of_other (hq : s.requests = r :: rest) (hc : commandOf r.code ≠ some .restart) :
    restartRequest s = s := by
  unfold restartRequest
  split
  next _ _ _ h =>
    obtain ⟨rfl, rfl⟩ := List.cons.inj (h.symm.trans hq)
    exact if_neg hc
  next => rfl

theorem serve_of_refused (hi : s.restart = .idle) (hq : s.requests = r :: rest) (hc : commandOf r.code = some c)
    (hpre : precheck { s with requests := rest } c r = some st) :
    serve c core s = respond r { st := st, body := [], after := { s with requests := rest } } := by
  unfold serve
  split
  next _ _ _ h =>
    obtain ⟨rfl, rfl⟩ := List.cons.inj (h.symm.trans hq)
    refine (if_pos hc).trans ?_
    simp only [hpre]
  next h => exact absurd hq (h r rest hi)

theorem restartRequest_of_refused (hi : s.restart = .idle) (hq : s.requests = r :: rest)
    (hc : commandOf r.code = some .restart) (hpre : precheck { s with requests := rest } .restart r = some st) :
    restartRequest s = respond r { st := st, body := [], after := { s with requests := rest } } := by
  unfold restartRequest
  split
  next _ _ _ h =>
    obtain ⟨rfl, rfl⟩ := List.cons.inj (h.symm.trans hq)
    refine (if_pos hc).trans ?_
    simp only [hpre]
  next h => exact absurd hq (h r rest hi)

theorem exec_of_busy (c : Command) (h : s.restart ≠ .idle ∨ s.requests = []) : exec c.instr s = .next s := by
  obtain ⟨core, hcore⟩ | ⟨rfl, hrestart⟩ := c.exec_instr
  · rw [hcore, serve_of_busy h]
  · rw [hrestart, restartRequest_of_busy h]

theorem exec_of_other (hq : s.requests = r :: rest) (hc : commandOf r.code ≠ some c) : exec c.instr s = .next s := by
  obtain ⟨core, hcore⟩ | ⟨rfl, hrestart⟩ := c.exec_instr
  · rw [hcore, serve_of_other hq hc]
  · rw [hrestart, restartRequest_of_other hq hc]

theorem exec_of_refused (hi : s.restart = .idle) (hq : s.requests = r :: rest) (hc : commandOf r.code = some c)
    (hpre : precheck { s with requests := rest } c r = some st) :
    exec c.instr s = .next (respond r { st := st, body := [], after := { s with requests := rest } }) := by
  obtain ⟨core, hcore⟩ | ⟨rfl, hrestart⟩ := c.exec_instr
  · rw [hcore, serve_of_refused hi hq hc hpre]
  · rw [hrestart, restartRequest_of_refused hi hq hc hpre]

end

theorem exec_badCommandRequest (s : State) : exec .badCommandRequest s = .next (badCommand s) := rfl

/-! ### The permissions of R196 -/

theorem vector_mem_toList_iff {α : Type} {n : Nat} {v : Vector α n} {x : α} : x ∈ v.toList ↔ ∃ i : Fin n, v[i] = x := by
  rw [Vector.mem_toList_iff, Vector.mem_iff_getElem]
  exact ⟨fun ⟨i, hi, h⟩ => ⟨⟨i, hi⟩, h⟩, fun ⟨i, h⟩ => ⟨i, i.isLt, h⟩⟩

theorem listEmpty_iff {s : State} : listEmpty s = true ↔ ∀ i : Fin 4, s.managers[i] = 0 := by
  simp only [listEmpty, List.all_eq_true, vector_mem_toList_iff, beq_iff_eq]
  exact ⟨fun h i => h _ ⟨i, rfl⟩, fun h x ⟨i, hi⟩ => hi ▸ h i⟩

theorem openToAll_iff {c : Command} {body : List Byte} :
    openToAll c body = true ↔
      c = .identify ∨ c = .readStatus ∨ c = .readTable ∨ (c = .readCapture ∧ byteAt body 1 = 0#8) := by
  cases c <;> simp [openToAll]

theorem isManager_iff {s : State} {src : Addr} :
    (s.managers.toList.any fun a => a != 0#48 && a == src) = true ↔
      ∃ i : Fin 4, s.managers[i] ≠ 0 ∧ s.managers[i] = src := by
  simp only [List.any_eq_true, vector_mem_toList_iff, Bool.and_eq_true, bne_iff_ne, beq_iff_eq]
  exact ⟨fun ⟨x, ⟨i, hi⟩, h⟩ => ⟨i, hi ▸ h⟩, fun ⟨i, h⟩ => ⟨_, ⟨i, rfl⟩, h⟩⟩

theorem permitted_iff {s : State} {c : Command} {src : Addr} {body : List Byte} :
    permitted s c src body = true ↔
      (∀ i : Fin 4, s.managers[i] = 0) ∨ (∃ i : Fin 4, s.managers[i] ≠ 0 ∧ s.managers[i] = src) ∨
        c = .identify ∨ c = .readStatus ∨ c = .readTable ∨ (c = .readCapture ∧ byteAt body 1 = 0#8) := by
  rw [permitted, Bool.or_eq_true, Bool.or_eq_true, listEmpty_iff, openToAll_iff, isManager_iff, or_assoc]
  exact or_congr_right or_comm

/-! ### The frame of a response -/

theorem tagBytes_length (tci : Option (BitVec 16)) : 12 + (tagBytes tci).length = typeOffset tci := by
  cases tci <;> simp [tagBytes, typeOffset]

/-- A management frame behind its addresses and its tag, with its padding (R209). -/
theorem mgmtFrame_split (dst src : Addr) (tci : Option (BitVec 16)) (kind tag cmd status : Nat) (body : List Byte) :
    ∃ pad, mgmtFrame dst src tci kind tag cmd status body =
      addrBytes dst ++ (addrBytes src ++ (tagBytes tci ++ (0x9A :: 0x3C :: 1 :: BitVec.ofNat 8 kind :: (beBytes 2 tag ++
        (BitVec.ofNat 8 cmd :: BitVec.ofNat 8 status :: (beBytes 2 body.length ++ (body ++ pad))))))) :=
  ⟨_, by simp only [mgmtFrame, padded, List.append_assoc, List.cons_append, List.nil_append]; rfl⟩

theorem padded_length (content : List Byte) : 60 ≤ (padded content).length := by
  simp only [padded, List.length_append, List.length_replicate]
  omega

/-- The outer facts of a frame to the part's management EtherType, and the data behind them (R20). -/
theorem factsOf_management (dst src : Addr) (tci : Option (BitVec 16)) (data : List Byte) :
    let frame := addrBytes dst ++ (addrBytes src ++ (tagBytes tci ++ (0x9A :: 0x3C :: data)))
    (factsOf frame).dst = dst ∧ (factsOf frame).src = src ∧ (factsOf frame).tci = tci ∧
      (factsOf frame).etherType = 0x9A3C#16 ∧ frame.drop (factsOf frame).dataPos = data := by
  intro frame
  have hdst : fieldAt frame 0 6 = dst.toNat := fieldAt_addrBytes _ _
  have hsrc : fieldAt frame 6 6 = src.toNat :=
    (fieldAt_append_right _ _ (Nat.le_of_eq (addrBytes_length _))).trans
      ((congrArg (fun k => fieldAt _ (6 - k) 6) (addrBytes_length dst)).trans (fieldAt_addrBytes _ _))
  refine ⟨(congrArg (BitVec.ofNat 48) hdst).trans (by simp), (congrArg (BitVec.ofNat 48) hsrc).trans (by simp), ?_⟩
  cases tci with
  | none =>
    have htype : fieldAt frame 12 2 = 0x9A3C := by simp [frame, tagBytes, fieldAt_two]
    obtain ⟨htci, hpos, het⟩ := factsOf_untagged (content := frame) (by omega)
    rw [htci, hpos, het, htype]
    exact ⟨rfl, rfl, by simp [frame, tagBytes, List.drop_append, List.drop_of_length_le]⟩
  | some v =>
    have htag : fieldAt frame 12 2 = 0x8100 := by simp [frame, tagBytes, fieldAt_two]
    have hv : fieldAt frame 14 2 = v.toNat := by simpa [frame, tagBytes] using v.isLt
    have htype : fieldAt frame 16 2 = 0x9A3C := by simp [frame, tagBytes, fieldAt_two]
    obtain ⟨htci, hpos, het⟩ := factsOf_tagged htag
    rw [htci, hpos, het, htype, hv]
    exact ⟨by simp, rfl, by simp [frame, tagBytes, List.drop_append, List.drop_of_length_le]⟩

/-- The management header and the body behind it (R209). -/
theorem management_fields {kind tag cmd status : Nat} (body pad : List Byte) (htag : tag < 65536)
    (hlen : body.length < 65536) :
    let d : List Byte := 1 :: BitVec.ofNat 8 kind :: (beBytes 2 tag ++
        (BitVec.ofNat 8 cmd :: BitVec.ofNat 8 status :: (beBytes 2 body.length ++ (body ++ pad))))
    byteAt d 0 = 1#8 ∧ byteAt d 1 = BitVec.ofNat 8 kind ∧ fieldAt d 2 2 = tag ∧ byteAt d 4 = BitVec.ofNat 8 cmd ∧
      byteAt d 5 = BitVec.ofNat 8 status ∧ fieldAt d 6 2 = body.length ∧ slice d 8 body.length = body := by
  refine ⟨rfl, rfl, ?_, by simp, by simp, ?_, ?_⟩
  · simpa using htag
  · simpa using hlen
  · simp [slice_append_left, slice_self]

theorem Request.tag_lt (r : Request) : r.tag < 65536 := fieldAt_lt r.data 2 2

theorem Status.code_lt (st : Status) : st.code < 256 := by cases st <;> decide

/-- Settles O52: the checks in their order, and the response's frame field by field. -/
theorem agentChecksAndAnswers : Obligations.AgentChecksAndAnswers := by
  refine ⟨⟨rfl, commandOf_succ, rfl, rfl⟩, fun r => ⟨r.data_eq, rfl, rfl, rfl, rfl⟩, fun c s => ⟨fun h => ?_, ?_, ?_⟩, ?_⟩
  · exact ⟨exec_of_busy c h, congrArg Host.Outcome.next (badCommand_of_busy h)⟩
  · intro r rest hi hq refuse short
    have hbad := badCommand_of_idle hi hq
    refine ⟨fun hc => ⟨fun h => ?_, fun h hp => ?_, ?_⟩, fun hc => ?_, fun hc => exec_of_other hq hc⟩
    · exact exec_of_refused hi hq hc (if_pos h)
    · refine exec_of_refused hi hq hc ((if_neg h).trans (if_neg ?_))
      exact Bool.eq_false_iff.mp hp
    · exact congrArg Host.Outcome.next (hbad.trans (if_neg (by rw [hc]; nofun)))
    · exact congrArg Host.Outcome.next (hbad.trans (if_pos hc))
  · exact fun src body => permitted_iff
  · intro r a x frame
    refine ⟨fun hl hq => arrive_ordinary_of_room hl hq, fun hl => arrive_of_down hl,
      fun hl hq => arrive_ordinary_of_full hl hq, fun hlen => ?_⟩
    obtain ⟨pad, hframe⟩ := mgmtFrame_split r.src a.after.station r.tci 2 r.tag r.code a.st.code a.body
    have hsplit : frame = _ := hframe
    obtain ⟨hdst, hsrc, htci, htype, hdata⟩ := factsOf_management r.src a.after.station r.tci
      (1 :: BitVec.ofNat 8 2 :: (beBytes 2 r.tag ++
        (BitVec.ofNat 8 r.code :: BitVec.ofNat 8 a.st.code :: (beBytes 2 a.body.length ++ (a.body ++ pad)))))
    rw [← hsplit] at hdst hsrc htci htype hdata
    obtain ⟨hversion, hkind, htag, hcmd, hstatus, hbody, hbytes⟩ :=
      management_fields (kind := 2) (cmd := r.code) (status := a.st.code) a.body pad r.tag_lt hlen
    rw [← hdata] at hversion hkind htag hcmd hstatus hbody hbytes
    exact ⟨hdst, hsrc, htci, htype, hversion, hkind, htag, (congrArg BitVec.toNat hcmd).trans (toNat_ofNat_of_lt (byteAt r.data 4).isLt),
      (congrArg BitVec.toNat hstatus).trans (toNat_ofNat_of_lt a.st.code_lt), hbody, hbytes, padded_length _⟩

end Sys2Proof.Machine
end

section
/-!
PROOFS. The entries that a manager writes: which are accepted, and the record that each gives (R32, R54, R77, R101,
R158, R164, R177, R207, R209).
-/

namespace Sys2Proof.Machine

/-! ### The code bytes -/

theorem carrierOf_eq (n : Nat) : carrierOf n = [Carrier.none, .l2, .udp4][n]? := by
  match n with
  | 0 | 1 | 2 => rfl
  | _ + 3 => rfl

theorem actionOf_eq (n : Nat) : actionOf n = [Action.forward, .forwardCorrect, .copyCorrect, .takeTiming, .drop][n]? := by
  match n with
  | 0 | 1 | 2 | 3 | 4 => rfl
  | _ + 5 => rfl

theorem classOf_eq (n : Nat) : classOf n = [TClass.ordinary, .timing][n]? := by
  match n with
  | 0 | 1 => rfl
  | _ + 2 => rfl

theorem modeOf_eq (n : Nat) : modeOf n = [CadMode.off, .continuous, .oneShot][n]? := by
  match n with
  | 0 | 1 | 2 => rfl
  | _ + 3 => rfl

theorem shapeOf_eq (n : Nat) : shapeOf n = [Shape.pulse, .square][n]? := by
  match n with
  | 0 | 1 => rfl
  | _ + 2 => rfl

theorem policyOf_eq (n : Nat) : policyOf n = [Policy.always, .whenTraced][n]? := by
  match n with
  | 0 | 1 => rfl
  | _ + 2 => rfl

theorem polarityOf_eq (n : Nat) : polarityOf n = [Polarity.normal, .inverted][n]? := by
  match n with
  | 0 | 1 => rfl
  | _ + 2 => rfl

theorem enableOf_eq (n : Nat) : enableOf n = [false, true][n]? := by
  match n with
  | 0 | 1 => rfl
  | _ + 2 => rfl

theorem clockEdgeOf_eq (n : Nat) : clockEdgeOf n = [ClockEdge.rising, .falling][n]? := by
  match n with
  | 0 | 1 => rfl
  | _ + 2 => rfl

theorem selOf_eq (n : Nat) : selOf n = [EdgeSel.none, .rising, .falling, .both][n]? := by
  match n with
  | 0 | 1 | 2 | 3 => rfl
  | _ + 4 => rfl

theorem ringOf_eq (n : Nat) : ringOf n = [RingMode.continuous, .oneShot][n]? := by
  match n with
  | 0 | 1 => rfl
  | _ + 2 => rfl

theorem egressOf_eq (n : Nat) : egressOf n = [Port.n, .d][n]? := by
  match n with
  | 0 | 1 => rfl
  | _ + 2 => rfl

theorem finOf_eq_some_iff {n i : Nat} {x : Fin n} : finOf n i = some x ↔ i = x.val := by
  unfold finOf
  split
  next h => exact Option.some_inj.trans (Fin.ext_iff)
  next h => exact ⟨nofun, fun hi => absurd (hi ▸ x.isLt) h⟩

theorem isSome_finOf {n i : Nat} : (finOf n i).isSome = true ↔ i < n := by
  unfold finOf
  split
  next h => exact ⟨fun _ => h, fun _ => rfl⟩
  next h => exact ⟨nofun, fun hi => absurd hi h⟩

theorem carrierOf_eq_some_iff {n : Nat} {c : Carrier} : carrierOf n = some c ↔ n = c.code := by
  match n with
  | 0 | 1 | 2 => cases c <;> decide
  | n + 3 => exact ⟨nofun, fun h => by cases c <;> simp [Carrier.code] at h⟩

theorem actionOf_eq_some_iff {n : Nat} {a : Action} : actionOf n = some a ↔ n = a.code := by
  match n with
  | 0 | 1 | 2 | 3 | 4 => cases a <;> decide
  | n + 5 => exact ⟨nofun, fun h => by cases a <;> simp [Action.code] at h⟩

/-- A source byte and number that name a source (R158). -/
theorem isSome_sourceOf {src num : Nat} :
    (sourceOf src num).isSome = true ↔ src ≤ 7 ∧ (src = 2 → num < 8) ∧ (src = 3 ∨ src = 4 → num < 2) := by
  match src with
  | 0 | 1 | 5 | 6 | 7 => simp [sourceOf]
  | 2 | 3 | 4 => simp [sourceOf, isSome_finOf]
  | _ + 8 => simp [sourceOf]

theorem sourceOf_fields {src num : Nat} {x : Source} (h : sourceOf src num = some x) :
    ((src = 0 → x = .low) ∧ (src = 1 → x = .high)) ∧
      (src = 2 → ∃ n : Fin 8, n.val = num ∧ x = .cadence n) ∧
      (src = 3 → ∃ m : Fin 2, m.val = num ∧ x = .labelData m) ∧
      (src = 4 → ∃ m : Fin 2, m.val = num ∧ x = .labelClock m) ∧
      (src = 5 → x = .locked) ∧ (src = 6 → x = .traced) ∧ (src = 7 → x = .backup) := by
  match src with
  | 0 | 1 | 5 | 6 | 7 => cases h; simp
  | 2 | 3 | 4 =>
    obtain ⟨n, hn, rfl⟩ := Option.map_eq_some_iff.mp h
    simp [finOf_eq_some_iff.mp hn]
  | _ + 8 => cases h

/-! ### The conditions of R32 -/

theorem not_and_eq_true_iff {x y : Bool} : (!(x && y)) = true ↔ (x = true → ¬ y = true) := by
  cases x <;> cases y <;> decide

theorem ClassEntry.legal_iff {e : ClassEntry} :
    e.legal = true ↔
      (e.portN = true ∨ e.portD = true) ∧ (1 ≤ e.action.code → e.action.code ≤ 3 → e.carrier.code ≠ 0) ∧
        (e.kinds.isSome = true ∨ e.domain.isSome = true → e.carrier.code ≠ 0) ∧
        (e.carrier.code = 1 → e.udpPort.isSome = false) ∧
        (e.udpPort.isSome = true ∨ e.carrier.code = 2 → ∀ t ∈ e.etherType, t = 0x0800#16) := by
  have hnone : (e.carrier == .none) = true ↔ e.carrier.code = 0 := by cases e.carrier <;> decide
  have hl2 : (e.carrier == .l2) = true ↔ e.carrier.code = 1 := by cases e.carrier <;> decide
  have hudp : (e.carrier == .udp4) = true ↔ e.carrier.code = 2 := by cases e.carrier <;> decide
  have hact : (e.action == .forwardCorrect || e.action == .copyCorrect || e.action == .takeTiming) = true ↔
      1 ≤ e.action.code ∧ e.action.code ≤ 3 := by cases e.action <;> decide
  have het : (e.etherType.isSome && e.etherType != some 0x0800#16) = true ↔ ¬ ∀ t ∈ e.etherType, t = 0x0800#16 := by
    cases e.etherType <;> simp
  rw [ClassEntry.legal, Bool.and_assoc _ e.etherType.isSome]
  simp only [Bool.and_eq_true, not_and_eq_true_iff, and_assoc]
  refine and_congr (iff_of_eq (Bool.or_eq_true ..)) (and_congr ?_ (and_congr ?_ (and_congr ?_ ?_)))
  · exact (imp_congr hact (not_congr hnone)).trans and_imp
  · exact imp_congr (iff_of_eq (Bool.or_eq_true ..)) (not_congr hnone)
  · exact imp_congr hl2 (iff_of_eq (Bool.not_eq_true _))
  · refine imp_congr ((iff_of_eq (Bool.or_eq_true ..)).trans (or_congr_right hudp)) ?_
    rw [← Bool.and_eq_true, het, not_not]

/-! ### The decoders, field by field -/

section
variable {b : List Byte}

theorem fieldAt_one (b : List Byte) (i : Nat) : fieldAt b i 1 = (byteAt b i).toNat := by
  rw [fieldAt, slice, byteAt, List.getD_eq_getElem?_getD, ← List.head?_drop]
  cases b.drop i <;> simp [beNat]

theorem decodeRoute_eq_some_iff {r : Route} :
    decodeRoute b = some r ↔
      sourceOf (byteAt b 0).toNat (byteAt b 1).toNat = some r.source ∧ polarityOf (byteAt b 2).toNat = some r.polarity := by
  unfold decodeRoute
  constructor
  · intro h
    split at h
    next hs hp => cases h; exact ⟨hs, hp⟩
    next => cases h
  · rintro ⟨hs, hp⟩
    simp only [hs, hp]

theorem decodeCad_eq_some_iff {r : CadRec} :
    decodeCad b = some r ↔
      (modeOf (byteAt b 0).toNat = some r.mode ∧ shapeOf (byteAt b 1).toNat = some r.shape ∧
          policyOf (byteAt b 2).toNat = some r.policy) ∧
        ¬ (r.num = 0 ∨ r.den = 0 ∨ maxRate < r.num ∨ maxRate < r.den ∨ r.den * 10 ^ 7 < r.num) ∧
        r.num = fieldAt b 3 4 ∧ r.den = fieldAt b 7 4 ∧ r.phase = fieldAt b 11 4 ∧
        r.width = fitWidth (r.den * 10 ^ 9 / r.num) (fieldAt b 15 4) := by
  simp only [decodeCad]
  constructor
  · intro h
    split at h
    next hm hs hp =>
      split at h
      next => cases h
      next hgood => cases h; exact ⟨⟨hm, hs, hp⟩, hgood, rfl, rfl, rfl, rfl⟩
    next => cases h
  · rintro ⟨⟨hm, hs, hp⟩, hgood, hnum, hden, hphase, hwidth⟩
    simp only [hm, hs, hp, ← hnum, ← hden, if_neg hgood, ← hphase, ← hwidth]

theorem decodeLabel_eq_some_iff {c : LabelCfg} :
    decodeLabel b = some c ↔
      (enableOf (byteAt b 0).toNat = some c.enable ∧ finOf 8 (byteAt b 1).toNat = some c.cadence ∧
          clockEdgeOf (byteAt b 6).toNat = some c.edge) ∧
        ¬ c.period < 2 ∧ c.delay = fieldAt b 2 2 ∧ c.period = fieldAt b 4 2 := by
  unfold decodeLabel
  constructor
  · intro h
    split at h
    next he hc hk =>
      split at h
      next => cases h
      next hgood => cases h; exact ⟨⟨he, hc, hk⟩, hgood, rfl, rfl⟩
    next => cases h
  · rintro ⟨⟨he, hc, hk⟩, hgood, hdelay, hperiod⟩
    simp only [he, hc, hk, ← hperiod, if_neg hgood, ← hdelay]

theorem decodeCapture_eq_some_iff {r : CapRec} :
    decodeCapture b = some r ↔
      (selOf (byteAt b 0).toNat = some r.sel ∧ ringOf (byteAt b 2).toNat = some r.mode ∧
          boundOf (byteAt b 3).toNat = some r.bound) ∧
        r.qual = (byteAt b 1).toNat ∧ r.window = bitsAt 4 b 4 1 := by
  unfold decodeCapture
  constructor
  · intro h
    split at h
    next hs hm hc => cases h; exact ⟨⟨hs, hm, hc⟩, rfl, rfl⟩
    next => cases h
  · rintro ⟨⟨hs, hm, hc⟩, hqual, hwindow⟩
    simp only [hs, hm, hc, ← hqual, ← hwindow]

theorem decodeNotify_eq_some_iff {c : NotifyCfg} :
    decodeNotify b = some c ↔
      egressOf (byteAt b 7).toNat = some c.egress ∧
        c.dest = present (decide (byteAt b 0 ≠ 0)) (bitsAt 48 b 1 6) ∧ c.holdoff = fieldAt b 8 2 ∧
        c.enable = byteAt b 10 := by
  rw [decodeNotify, Option.map_eq_some_iff]
  constructor
  · rintro ⟨p, hp, rfl⟩
    exact ⟨hp, rfl, rfl, rfl⟩
  · rintro ⟨hp, hdest, hholdoff, henable⟩
    exact ⟨_, hp, by rw [← hdest, ← hholdoff, ← henable]⟩

theorem decodeServo_eq_some_iff {c : ServoCfg} :
    decodeServo b = some c ↔
      ((byteAt b 0).toNat ≤ 127 ∧ 2 ≤ (byteAt b 1).toNat ∧ (byteAt b 1).toNat ≤ 10 ∧ -4 ≤ signedOf 8 (byteAt b 2).toNat ∧
          signedOf 8 (byteAt b 2).toNat ≤ 2 ∧ 1 ≤ fieldAt b 7 4 ∧ fieldAt b 11 2 ≤ 4095 ∧ fieldAt b 15 4 ≤ 10 ^ 9 ∧
          1 ≤ fieldAt b 19 4 ∧ fieldAt b 19 4 ≤ 10 ^ 9 ∧ 1 ≤ fieldAt b 23 4 ∧ fieldAt b 23 4 ≤ 10 ^ 6) ∧
        c.domain = byteAt b 0 ∧ c.multiple = (byteAt b 1).toNat ∧ c.probeCode = signedOf 8 (byteAt b 2).toNat ∧
        c.probeIp = bitsAt 32 b 3 4 ∧ c.maxAdjust = min maxAdjustLimit (fieldAt b 7 4) ∧ c.kp = fieldAt b 11 2 ∧
        c.ki = fieldAt b 13 2 ∧ c.stepThreshold = fieldAt b 15 4 ∧ c.outlierGate = fieldAt b 19 4 ∧
        c.lockWindow = fieldAt b 23 4 ∧ c.holdoverLimit = fieldAt b 27 2 := by
  simp only [decodeServo]
  constructor
  · intro h
    split at h
    next hok => cases h; exact ⟨hok, rfl, rfl, rfl, rfl, rfl, rfl, rfl, rfl, rfl, rfl, rfl⟩
    next => cases h
  · rintro ⟨hok, hdomain, hmultiple, hcode, hip, hmax, hkp, hki, hstep, hgate, hlock, hlimit⟩
    rw [if_pos hok, ← hdomain, ← hmultiple, ← hcode, ← hip, ← hmax, ← hkp, ← hki, ← hstep, ← hgate, ← hlock, ← hlimit]

theorem decodeClass_of_invalid (h : (byteAt b 0).getLsbD 0 = false) : decodeClass b = some ClassEntry.empty := if_pos h

/-- A written entry with valid set, whose message kinds and domain are in range. -/
theorem decodeClass_eq_some_iff {e : ClassEntry} (h : (byteAt b 0).getLsbD 0 = true) :
    decodeClass b = some e ↔
      ¬ ((byteAt b 1).getLsbD 4 = true ∧ 32 ≤ (byteAt b 21).toNat) ∧
        ¬ ((byteAt b 1).getLsbD 5 = true ∧ 128 ≤ (byteAt b 22).toNat) ∧
        (vlanOf ((byteAt b 1).getLsbD 1) (fieldAt b 14 2) = some e.vlan ∧ carrierOf (byteAt b 20).toNat = some e.carrier ∧
          actionOf (byteAt b 23).toNat = some e.action ∧ classOf (byteAt b 24).toNat = some e.cls) ∧
        (e.valid = true ∧ e.portN = (byteAt b 0).getLsbD 1 ∧ e.portD = (byteAt b 0).getLsbD 2) ∧
        e.dest = present ((byteAt b 1).getLsbD 0) (bitsAt 48 b 2 6, bitsAt 48 b 8 6) ∧
        e.etherType = present ((byteAt b 1).getLsbD 2) (bitsAt 16 b 16 2) ∧
        e.udpPort = present ((byteAt b 1).getLsbD 3) (bitsAt 16 b 18 2) ∧
        e.kinds = present ((byteAt b 1).getLsbD 4) (bitsAt 5 b 21 1) ∧
        e.domain = present ((byteAt b 1).getLsbD 5) (byteAt b 22) ∧ e.legal = true := by
  simp only [decodeClass]
  rw [if_neg (by rw [h]; nofun)]
  constructor
  · intro hsome
    split at hsome
    next => cases hsome
    next hkinds =>
      split at hsome
      next => cases hsome
      next hdomain =>
        split at hsome
        next hv hc ha hk =>
          split at hsome
          next hlegal =>
            cases hsome
            exact ⟨hkinds, hdomain, ⟨hv, hc, ha, hk⟩, ⟨rfl, rfl, rfl⟩, rfl, rfl, rfl, rfl, rfl, hlegal⟩
          next => cases hsome
        next => cases hsome
  · rintro ⟨hkinds, hdomain, ⟨hv, hc, ha, hk⟩, ⟨hvalid, hn, hd⟩, hdest, htype, hport, hset, hdom, hlegal⟩
    rw [if_neg hkinds, if_neg hdomain]
    simp only [hv, hc, ha, hk, ← hn, ← hd, ← hdest, ← htype, ← hport, ← hset, ← hdom]
    cases e
    cases hvalid
    exact if_pos hlegal

end

/-! ### Which entries are accepted -/

/-- A decoder that accepts exactly under a condition, and gives records with a property. -/
theorem accepts_exactly {α : Type} {ok : Prop} {x : Option α} {holds : α → Prop} (hok : ok → ∃ r, x = some r)
    (hsome : ∀ r, x = some r → ok ∧ holds r) : (¬ ok → x = none) ∧ (ok → ∃ r, x = some r ∧ holds r) :=
  ⟨fun hn => Option.eq_none_iff_forall_ne_some.mpr fun r hr => hn (hsome r hr).1, fun h =>
    (hok h).imp fun r hr => ⟨hr, (hsome r hr).2⟩⟩

theorem exists_code {α : Type} {xs : List α} {n : Nat} (h : n < xs.length) : ∃ x, xs[n]? = some x :=
  ⟨xs[n], List.getElem?_eq_getElem h⟩

theorem code_lt {α : Type} {xs : List α} {n : Nat} {x : α} (h : xs[n]? = some x) : n < xs.length :=
  (List.getElem?_eq_some_iff.mp h).1

theorem vlanOf_of_present {p : Bool} {n : Nat} (h : p = true → n < 4096 ∨ n = 65535) : ∃ v, vlanOf p n = some v := by
  unfold vlanOf
  split_ifs with hp huntagged hid
  · exact ⟨_, rfl⟩
  · exact ⟨_, rfl⟩
  · exact ⟨_, rfl⟩
  · exact ((h (Bool.eq_true_of_not_eq_false hp)).elim hid huntagged).elim

theorem vlanOf_fields {p : Bool} {n : Nat} {v : Option VlanMatch} (h : vlanOf p n = some v) :
    (p = true → n < 4096 ∨ n = 65535) ∧
      v = (if p then some (if n = 65535 then .untagged else .id (BitVec.ofNat 12 n)) else none) := by
  unfold vlanOf at h
  split_ifs at h with hp huntagged hid
  all_goals cases h
  · exact ⟨fun ht => absurd (hp.symm.trans ht) Bool.false_ne_true, by rw [hp]; rfl⟩
  · exact ⟨fun _ => .inr huntagged, by rw [Bool.eq_true_of_not_eq_false hp, if_pos rfl, if_pos huntagged]⟩
  · exact ⟨fun _ => .inl hid, by rw [Bool.eq_true_of_not_eq_false hp, if_pos rfl, if_neg huntagged]⟩

theorem isSome_present {α : Type} {c : Bool} {x : α} : (present c x).isSome = c := by
  cases c <;> rfl

theorem forall_mem_present {α : Type} {c : Bool} {x : α} {P : α → Prop} : (∀ y ∈ present c x, P y) ↔ (c = true → P x) := by
  cases c
  · exact ⟨fun _ => nofun, fun _ => nofun⟩
  · exact ⟨fun h _ => h x rfl, fun h y hy => Option.some.inj hy ▸ h rfl⟩

/-- A value behind a present byte: any value but 0 is set (assumption 10). -/
theorem present_of_byte {α : Type} (x : Byte) (v : α) :
    present (decide (x ≠ 0)) v = if x.toNat = 0 then none else some v := by
  by_cases hzero : x = 0
  · rw [decide_eq_false (not_not.mpr hzero), hzero]
    rfl
  · have hnat : ¬ x.toNat = 0 := fun h => hzero (BitVec.eq_of_toNat_eq h)
    rw [decide_eq_true hzero, if_neg hnat]
    rfl

theorem boundOf_of {n : Nat} (h : n < 8 ∨ n = 255) : ∃ x, boundOf n = some x := by
  unfold boundOf
  split
  next => exact ⟨_, rfl⟩
  next hn => exact ⟨_, by rw [finOf_of_lt (h.resolve_right hn)]; rfl⟩

theorem boundOf_fields {n : Nat} {x : Option (Fin 8)} (h : boundOf n = some x) :
    (n < 8 ∨ n = 255) ∧ (n = 255 → x = none) ∧ (n < 8 → ∃ c : Fin 8, c.val = n ∧ x = some c) := by
  unfold boundOf at h
  split at h
  next hn =>
    cases h
    exact ⟨.inr hn, fun _ => rfl, fun h8 => by omega⟩
  next hn =>
    obtain ⟨c, hc, rfl⟩ := Option.map_eq_some_iff.mp h
    have hval := finOf_eq_some_iff.mp hc
    exact ⟨.inl (hval ▸ c.isLt), fun h255 => absurd h255 hn, fun _ => ⟨c, hval.symm, rfl⟩⟩

section
variable {b : List Byte}

theorem decodeClass_accepts (h : (byteAt b 0).getLsbD 0 = true) :
    (∃ e, decodeClass b = some e) ↔
      ((byteAt b 0).getLsbD 1 = true ∨ (byteAt b 0).getLsbD 2 = true) ∧
        ((byteAt b 1).getLsbD 1 = true → fieldAt b 14 2 < 4096 ∨ fieldAt b 14 2 = 65535) ∧ (byteAt b 20).toNat ≤ 2 ∧
        ((byteAt b 1).getLsbD 4 = true → (byteAt b 21).toNat < 32 ∧ (byteAt b 20).toNat ≠ 0) ∧
        ((byteAt b 1).getLsbD 5 = true → (byteAt b 22).toNat < 128 ∧ (byteAt b 20).toNat ≠ 0) ∧
        (byteAt b 23).toNat ≤ 4 ∧ (byteAt b 24).toNat ≤ 1 ∧
        (1 ≤ (byteAt b 23).toNat → (byteAt b 23).toNat ≤ 3 → (byteAt b 20).toNat ≠ 0) ∧
        ((byteAt b 20).toNat = 1 → (byteAt b 1).getLsbD 3 = false) ∧
        ((byteAt b 1).getLsbD 3 = true ∨ (byteAt b 20).toNat = 2 → (byteAt b 1).getLsbD 2 = true →
          fieldAt b 16 2 = 0x0800) := by
  have htype : bitsAt 16 b 16 2 = 0x0800#16 ↔ fieldAt b 16 2 = 0x0800 := bitsAt_eq_iff (by decide) (by decide)
  constructor
  · rintro ⟨e, he⟩
    obtain ⟨hkinds, hdomain, ⟨hv, hc, ha, hk⟩, ⟨-, hn, hd⟩, -, het, hport, hset, hdom, hlegal⟩ :=
      (decodeClass_eq_some_iff h).mp he
    obtain ⟨hports, haction, hheader, hl2, hudp⟩ := ClassEntry.legal_iff.mp hlegal
    rw [hset, isSome_present, hdom, isSome_present] at hheader
    rw [hport, isSome_present] at hl2 hudp
    rw [het, forall_mem_present, htype] at hudp
    rw [hn, hd] at hports
    rw [carrierOf_eq_some_iff.mp hc, actionOf_eq_some_iff.mp ha]
    refine ⟨hports, (vlanOf_fields hv).1, by cases e.carrier <;> decide, fun h4 => ⟨Nat.lt_of_not_le fun hle => hkinds ⟨h4, hle⟩, hheader (.inl h4)⟩,
      fun h5 => ⟨Nat.lt_of_not_le fun hle => hdomain ⟨h5, hle⟩, hheader (.inr h5)⟩, by cases e.action <;> decide,
      Nat.le_of_lt_succ (code_lt ((classOf_eq _).symm.trans hk)), haction, hl2, hudp⟩
  · rintro ⟨hports, hvlan, hcarrier, hkinds, hdomain, haction, hcls, hheader, hl2, hudp⟩
    obtain ⟨v, hv⟩ := vlanOf_of_present hvlan
    obtain ⟨c, hc⟩ := exists_code (xs := [Carrier.none, .l2, .udp4]) (Nat.lt_succ_of_le hcarrier)
    obtain ⟨a, ha⟩ := exists_code (xs := [Action.forward, .forwardCorrect, .copyCorrect, .takeTiming, .drop]) (Nat.lt_succ_of_le haction)
    obtain ⟨k, hk⟩ := exists_code (xs := [TClass.ordinary, .timing]) (Nat.lt_succ_of_le hcls)
    rw [← carrierOf_eq] at hc
    rw [← actionOf_eq] at ha
    rw [← classOf_eq] at hk
    rw [carrierOf_eq_some_iff.mp hc] at hkinds hdomain hheader hl2 hudp
    rw [actionOf_eq_some_iff.mp ha] at hheader
    refine ⟨{ valid := true
              portN := (byteAt b 0).getLsbD 1
              portD := (byteAt b 0).getLsbD 2
              dest := present ((byteAt b 1).getLsbD 0) (bitsAt 48 b 2 6, bitsAt 48 b 8 6)
              vlan := v
              etherType := present ((byteAt b 1).getLsbD 2) (bitsAt 16 b 16 2)
              udpPort := present ((byteAt b 1).getLsbD 3) (bitsAt 16 b 18 2)
              carrier := c
              kinds := present ((byteAt b 1).getLsbD 4) (bitsAt 5 b 21 1)
              domain := present ((byteAt b 1).getLsbD 5) (byteAt b 22)
              action := a
              cls := k },
      (decodeClass_eq_some_iff h).mpr ⟨fun h4 => Nat.not_le.mpr (hkinds h4.1).1 h4.2,
        fun h5 => Nat.not_le.mpr (hdomain h5.1).1 h5.2, ⟨hv, hc, ha, hk⟩, ⟨rfl, rfl, rfl⟩, rfl, rfl, rfl, rfl, rfl,
        ClassEntry.legal_iff.mpr ⟨hports, hheader, ?_, ?_, ?_⟩⟩⟩
    · rw [isSome_present, isSome_present]
      exact fun hset => hset.elim (fun h4 => (hkinds h4).2) fun h5 => (hdomain h5).2
    · rw [isSome_present]
      exact hl2
    · rw [isSome_present, forall_mem_present, htype]
      exact hudp

/-- The record that an accepted CLASSIFY entry gives (R209). -/
theorem decodeClass_fields {e : ClassEntry} (h : (byteAt b 0).getLsbD 0 = true) (he : decodeClass b = some e) :
    e.valid = true ∧ e.portN = (byteAt b 0).getLsbD 1 ∧ e.portD = (byteAt b 0).getLsbD 2 ∧
      e.dest =
        (if (byteAt b 1).getLsbD 0 then some (BitVec.ofNat 48 (fieldAt b 2 6), BitVec.ofNat 48 (fieldAt b 8 6))
        else none) ∧
      e.vlan =
        (if (byteAt b 1).getLsbD 1 then
          some (if fieldAt b 14 2 = 65535 then .untagged else .id (BitVec.ofNat 12 (fieldAt b 14 2)))
        else none) ∧
      e.etherType = (if (byteAt b 1).getLsbD 2 then some (BitVec.ofNat 16 (fieldAt b 16 2)) else none) ∧
      e.udpPort = (if (byteAt b 1).getLsbD 3 then some (BitVec.ofNat 16 (fieldAt b 18 2)) else none) ∧
      [Carrier.none, .l2, .udp4][(byteAt b 20).toNat]? = some e.carrier ∧
      e.kinds = (if (byteAt b 1).getLsbD 4 then some (BitVec.ofNat 5 (byteAt b 21).toNat) else none) ∧
      e.domain = (if (byteAt b 1).getLsbD 5 then some (byteAt b 22) else none) ∧
      [Action.forward, .forwardCorrect, .copyCorrect, .takeTiming, .drop][(byteAt b 23).toNat]? = some e.action ∧
      [TClass.ordinary, .timing][(byteAt b 24).toNat]? = some e.cls := by
  obtain ⟨-, -, ⟨hv, hc, ha, hk⟩, ⟨hvalid, hn, hd⟩, hdest, het, hport, hset, hdom, -⟩ := (decodeClass_eq_some_iff h).mp he
  rw [bitsAt, fieldAt_one] at hset
  exact ⟨hvalid, hn, hd, hdest, (vlanOf_fields hv).2, het, hport, (carrierOf_eq _).symm.trans hc, hset, hdom,
    (actionOf_eq _).symm.trans ha, (classOf_eq _).symm.trans hk⟩

theorem decodeRoute_accepts
    (h : (byteAt b 0).toNat ≤ 7 ∧ ((byteAt b 0).toNat = 2 → (byteAt b 1).toNat < 8) ∧
      ((byteAt b 0).toNat = 3 ∨ (byteAt b 0).toNat = 4 → (byteAt b 1).toNat < 2) ∧ (byteAt b 2).toNat ≤ 1) :
    ∃ r, decodeRoute b = some r := by
  obtain ⟨hsrc, hcad, hlabel, hpol⟩ := h
  obtain ⟨s, hs⟩ := Option.isSome_iff_exists.mp (isSome_sourceOf.mpr ⟨hsrc, hcad, hlabel⟩)
  obtain ⟨p, hp⟩ := exists_code (xs := [Polarity.normal, .inverted]) (Nat.lt_succ_of_le hpol)
  exact ⟨{ source := s, polarity := p }, decodeRoute_eq_some_iff.mpr ⟨hs, (polarityOf_eq _).trans hp⟩⟩

theorem decodeCapture_accepts
    (h : (byteAt b 0).toNat ≤ 3 ∧ (byteAt b 2).toNat ≤ 1 ∧ ((byteAt b 3).toNat < 8 ∨ (byteAt b 3).toNat = 255)) :
    ∃ r, decodeCapture b = some r := by
  obtain ⟨hsel, hmode, hbound⟩ := h
  obtain ⟨e, he⟩ := exists_code (xs := [EdgeSel.none, .rising, .falling, .both]) (Nat.lt_succ_of_le hsel)
  obtain ⟨m, hm⟩ := exists_code (xs := [RingMode.continuous, .oneShot]) (Nat.lt_succ_of_le hmode)
  obtain ⟨c, hc⟩ := boundOf_of hbound
  exact ⟨{ sel := e, qual := (byteAt b 1).toNat, mode := m, bound := c, window := bitsAt 4 b 4 1 },
    decodeCapture_eq_some_iff.mpr ⟨⟨(selOf_eq _).trans he, (ringOf_eq _).trans hm, hc⟩, rfl, rfl⟩⟩

theorem decodeNotify_accepts (h : (byteAt b 7).toNat ≤ 1) : ∃ c, decodeNotify b = some c := by
  obtain ⟨p, hp⟩ := exists_code (xs := [Port.n, .d]) (Nat.lt_succ_of_le h)
  exact ⟨_, Option.map_eq_some_iff.mpr ⟨p, (egressOf_eq _).trans hp, rfl⟩⟩

end

/-- Settles O57: each decoder's conditions, and the record it gives, from its field-by-field form. -/
theorem writtenBytesStandAtTheirOffsets : Obligations.WrittenBytesStandAtTheirOffsets := by
  intro b byte bit iff code
  refine ⟨⟨fun h => decodeClass_of_invalid h, fun h => ?_⟩, ?_, fun r hr => ?_, ?_, fun c hc => ?_, ?_, ?_⟩
  · exact accepts_exactly (decodeClass_accepts h).mpr fun e he => ⟨(decodeClass_accepts h).mp ⟨e, he⟩, decodeClass_fields h he⟩
  · exact accepts_exactly
      (fun hok => ⟨_, if_pos hok⟩)
      fun c hc => decodeServo_eq_some_iff.mp hc
  · obtain ⟨⟨hm, hs, hp⟩, -⟩ := decodeCad_eq_some_iff.mp hr
    exact ⟨(modeOf_eq _).symm.trans hm, (shapeOf_eq _).symm.trans hs, (policyOf_eq _).symm.trans hp⟩
  · refine accepts_exactly decodeRoute_accepts fun r hr => ?_
    obtain ⟨hs, hp⟩ := decodeRoute_eq_some_iff.mp hr
    obtain ⟨hsrc, hcad, hlabel⟩ := isSome_sourceOf.mp (Option.isSome_iff_exists.mpr ⟨_, hs⟩)
    have hpol := (polarityOf_eq _).symm.trans hp
    exact ⟨⟨hsrc, hcad, hlabel, Nat.le_of_lt_succ (code_lt hpol)⟩, hpol, sourceOf_fields hs⟩
  · obtain ⟨⟨-, -, hk⟩, -⟩ := decodeLabel_eq_some_iff.mp hc
    exact (clockEdgeOf_eq _).symm.trans hk
  · refine accepts_exactly decodeCapture_accepts fun r hr => ?_
    obtain ⟨⟨hs, hm, hc⟩, hqual, hwindow⟩ := decodeCapture_eq_some_iff.mp hr
    have hsel := (selOf_eq _).symm.trans hs
    have hmode := (ringOf_eq _).symm.trans hm
    obtain ⟨hok, hnone, hbound⟩ := boundOf_fields hc
    refine ⟨⟨Nat.le_of_lt_succ (code_lt hsel), Nat.le_of_lt_succ (code_lt hmode), hok⟩, hsel, hqual, hmode, hnone,
      hbound, ?_⟩
    rw [hwindow, bitsAt, fieldAt_one, BitVec.toNat_ofNat]
  · refine accepts_exactly decodeNotify_accepts fun c hc => ?_
    obtain ⟨hp, hdest, hholdoff, henable⟩ := decodeNotify_eq_some_iff.mp hc
    have hport := (egressOf_eq _).symm.trans hp
    exact ⟨Nat.le_of_lt_succ (code_lt hport), hdest.trans (present_of_byte _ _), hport, hholdoff, henable⟩

end Sys2Proof.Machine
end

section
/-!
PROOFS. What a writable table reads back is, read as a written entry, the record that it holds (R202, R209).
-/

namespace Sys2Proof.Machine

/-! ### Reading one entry -/

section
variable (s : State) (k : Fin 4)

theorem readEntry_classify (i : Fin 32) : readEntry .classify i s = encodeClass s.classify[i] := by
  simp only [readEntry, finOf_val, Option.elim_some]

theorem readEntry_cadence (n : Fin 8) : readEntry (.cadence k) n s = readCad k n s := by
  simp only [readEntry, finOf_val, Option.elim_some]

theorem readEntry_lines (n : Fin 12) : readEntry (.lines k) n s = readLine k n s := by
  simp only [readEntry, finOf_val, Option.elim_some]

theorem readEntry_labels (m : Fin 2) : readEntry (.labels k) m s = readLabel k m s := by
  simp only [readEntry, finOf_val, Option.elim_some]

theorem readEntry_capture (n : Fin 4) : readEntry .capture n s = readCaptureRec n s := by
  simp only [readEntry, finOf_val, Option.elim_some]

theorem readEntry_notify (g : Fin 4) : readEntry .notify g s = readNotify g s := by
  simp only [readEntry, finOf_val, Option.elim_some]

theorem readEntry_managers (n : Fin 4) : readEntry .managers n s = addrBytes s.managers[n] := by
  simp only [readEntry, finOf_val, Option.elim_some]

theorem readEntry_sources (i : Fin 8) : readEntry .sources i s = readSource i s := by
  simp only [readEntry, finOf_val, Option.elim_some]

end

/-! ### Codes, flags and present values -/

theorem testBit_bitsByte (bs : List Bool) (i : Nat) : (bitsByte bs).testBit i = bs.getD i false := by
  induction bs generalizing i with
  | nil => simp [bitsByte]
  | cons b bs ih =>
    have hparts : bitsByte (b :: bs) = 2 * bitsByte bs + b.toNat := by
      cases b <;> simp [bitsByte, Nat.add_comm]
    cases i with
    | zero => rw [hparts, Nat.testBit_zero]; cases b <;> simp
    | succ i =>
      have hdiv : bitsByte (b :: bs) / 2 = bitsByte bs := by
        have hb := Bool.toNat_lt b
        omega
      rw [Nat.testBit_succ, hdiv, ih, List.getD_cons_succ]

theorem getLsbD_bitsByte (bs : List Bool) {i : Nat} (hi : i < 8) :
    (BitVec.ofNat 8 (bitsByte bs)).getLsbD i = bs.getD i false := by
  rw [BitVec.getLsbD_ofNat, testBit_bitsByte, decide_eq_true hi, Bool.true_and]

theorem eq_present {α : Type} {x : Option α} {y : α} (h : ∀ v ∈ x, y = v) : x = present x.isSome y := by
  cases x with
  | none => rfl
  | some v => exact congrArg some (h v rfl).symm

theorem vlanOf_vlanNumber (v : Option VlanMatch) : vlanOf v.isSome (vlanNumber v) = some v := by
  match v with
  | none => rfl
  | some .untagged => rfl
  | some (.id x) =>
    have hx := x.isLt
    have hne : ¬ x.toNat = 65535 := by omega
    simp only [vlanOf, vlanNumber, Option.isSome_some, if_neg hne, if_pos hx, Bool.true_eq_false, if_false,
      BitVec.ofNat_toNat, BitVec.setWidth_eq]

theorem classOf_code (k : TClass) : classOf k.code = some k := by cases k <;> rfl

theorem modeOf_code (m : CadMode) : modeOf m.code.toNat = some m := by cases m <;> rfl

theorem shapeOf_code (x : Shape) : shapeOf x.code.toNat = some x := by cases x <;> rfl

theorem policyOf_code (p : Policy) : policyOf p.code.toNat = some p := by cases p <;> rfl

theorem polarityOf_code (p : Polarity) : polarityOf p.code.toNat = some p := by cases p <;> rfl

theorem enableOf_flagByte (e : Bool) : enableOf (flagByte e).toNat = some e := by cases e <;> rfl

theorem clockEdgeOf_code (e : ClockEdge) : clockEdgeOf e.code.toNat = some e := by cases e <;> rfl

theorem selOf_code (e : EdgeSel) : selOf e.code.toNat = some e := by cases e <;> rfl

theorem ringOf_code (m : RingMode) : ringOf m.code.toNat = some m := by cases m <;> rfl

theorem egressOf_portCode (p : Port) : egressOf (portCode p).toNat = some p := by cases p <;> rfl

theorem Source.bytes_length (x : Source) : x.bytes.length = 2 := by cases x <;> rfl

theorem sourceOf_bytes (x : Source) (rest : List Byte) :
    sourceOf (byteAt (x.bytes ++ rest) 0).toNat (byteAt (x.bytes ++ rest) 1).toNat = some x := by
  cases x
  case cadence n => simp [Source.bytes, sourceOf, toNat_ofNat_of_lt (show n.val < 2 ^ 8 by omega), finOf_val]
  case labelData m => simp [Source.bytes, sourceOf, toNat_ofNat_of_lt (show m.val < 2 ^ 8 by omega), finOf_val]
  case labelClock m => simp [Source.bytes, sourceOf, toNat_ofNat_of_lt (show m.val < 2 ^ 8 by omega), finOf_val]
  all_goals rfl

/-- A bound cadence byte reads back the cadence, or none for 255 (R209). -/
theorem boundOf_byte (x : Option (Fin 8)) : boundOf (x.elim 255#8 fun c => BitVec.ofNat 8 c).toNat = some x := by
  cases x with
  | none => rfl
  | some c =>
    rw [Option.elim_some, toNat_ofNat_of_lt (by omega), boundOf, if_neg (by omega), finOf_val]
    rfl

/-! ### CLASSIFY -/

theorem encodeClass_parts (e : ClassEntry) :
    encodeClass e =
      BitVec.ofNat 8 (bitsByte [e.valid, e.portN, e.portD]) ::
        BitVec.ofNat 8 (bitsByte [e.dest.isSome, e.vlan.isSome, e.etherType.isSome, e.udpPort.isSome, e.kinds.isSome,
          e.domain.isSome]) ::
        (beBytes 6 ((e.dest.map fun p => p.1.toNat).getD 0) ++ (beBytes 6 ((e.dest.map fun p => p.2.toNat).getD 0) ++
          (beBytes 2 (vlanNumber e.vlan) ++ (beBytes 2 ((e.etherType.map BitVec.toNat).getD 0) ++
            (beBytes 2 ((e.udpPort.map BitVec.toNat).getD 0) ++
              [BitVec.ofNat 8 e.carrier.code, BitVec.ofNat 8 ((e.kinds.map BitVec.toNat).getD 0), e.domain.getD 0,
                BitVec.ofNat 8 e.action.code, BitVec.ofNat 8 e.cls.code]))))) := by
  simp [encodeClass]

theorem vlanNumber_lt (v : Option VlanMatch) : vlanNumber v < 65536 := by
  match v with
  | none => decide
  | some .untagged => decide
  | some (.id x) => exact Nat.lt_trans x.isLt (by decide)

theorem getD_map_lt {α : Type} {x : Option α} {f : α → Nat} {n : Nat} (hf : ∀ a, f a < n) (hn : 0 < n) :
    (x.map f).getD 0 < n := by
  cases x with
  | none => exact hn
  | some a => exact hf a

section
variable (e : ClassEntry)

theorem encodeClass_control {i : Nat} (hi : i < 8) :
    (byteAt (encodeClass e) 0).getLsbD i = [e.valid, e.portN, e.portD].getD i false := getLsbD_bitsByte _ hi

theorem encodeClass_present {i : Nat} (hi : i < 8) :
    (byteAt (encodeClass e) 1).getLsbD i =
      [e.dest.isSome, e.vlan.isSome, e.etherType.isSome, e.udpPort.isSome, e.kinds.isSome, e.domain.isSome].getD i false :=
  getLsbD_bitsByte _ hi

theorem encodeClass_fields :
    fieldAt (encodeClass e) 2 6 = (e.dest.map fun p => p.1.toNat).getD 0 ∧
      fieldAt (encodeClass e) 8 6 = (e.dest.map fun p => p.2.toNat).getD 0 ∧
      fieldAt (encodeClass e) 14 2 = vlanNumber e.vlan ∧
      fieldAt (encodeClass e) 16 2 = (e.etherType.map BitVec.toNat).getD 0 ∧
      fieldAt (encodeClass e) 18 2 = (e.udpPort.map BitVec.toNat).getD 0 := by
  have hdst : (e.dest.map fun p => p.1.toNat).getD 0 < 256 ^ 6 := getD_map_lt (fun p => p.1.isLt) (by decide)
  have hsrc : (e.dest.map fun p => p.2.toNat).getD 0 < 256 ^ 6 := getD_map_lt (fun p => p.2.isLt) (by decide)
  have htype : (e.etherType.map BitVec.toNat).getD 0 < 256 ^ 2 := getD_map_lt (fun t => t.isLt) (by decide)
  have hport : (e.udpPort.map BitVec.toNat).getD 0 < 256 ^ 2 := getD_map_lt (fun t => t.isLt) (by decide)
  have hvlan := vlanNumber_lt e.vlan
  rw [encodeClass_parts]
  refine ⟨?_, ?_, ?_, ?_, ?_⟩
  · simpa using hdst
  · simpa using hsrc
  · simpa using hvlan
  · simpa using htype
  · simpa using hport

theorem encodeClass_bytes :
    (byteAt (encodeClass e) 20).toNat = e.carrier.code ∧
      byteAt (encodeClass e) 21 = BitVec.ofNat 8 ((e.kinds.map BitVec.toNat).getD 0) ∧
      byteAt (encodeClass e) 22 = e.domain.getD 0 ∧ (byteAt (encodeClass e) 23).toNat = e.action.code ∧
      (byteAt (encodeClass e) 24).toNat = e.cls.code := by
  rw [encodeClass_parts]
  refine ⟨?_, by simp, by simp, ?_, ?_⟩
  · cases e.carrier <;> simp [Carrier.code]
  · cases e.action <;> simp [Action.code]
  · cases e.cls <;> simp [TClass.code]

end

/-- An entry with valid set that satisfies R32 reads back as itself. -/
theorem decodeClass_encodeClass {e : ClassEntry} (hvalid : e.valid = true) (hlegal : e.legal = true)
    (hdomain : ∀ d ∈ e.domain, d.toNat < 128) : decodeClass (encodeClass e) = some e := by
  obtain ⟨hdst, hsrc, hvlan, htype, hport⟩ := encodeClass_fields e
  obtain ⟨hcarrier, hkinds, hdom, haction, hcls⟩ := encodeClass_bytes e
  have hset : (e.kinds.map BitVec.toNat).getD 0 < 32 := getD_map_lt (fun k => k.isLt) (by decide)
  have hnat : (byteAt (encodeClass e) 21).toNat = (e.kinds.map BitVec.toNat).getD 0 := by
    rw [hkinds, toNat_ofNat_of_lt (by omega)]
  refine (decodeClass_eq_some_iff ((encodeClass_control e (by decide)).trans hvalid)).mpr ?_
  rw [encodeClass_control e (i := 1) (by decide), encodeClass_control e (i := 2) (by decide)]
  simp only [encodeClass_present e (i := 0) (by decide), encodeClass_present e (i := 1) (by decide),
    encodeClass_present e (i := 2) (by decide), encodeClass_present e (i := 3) (by decide),
    encodeClass_present e (i := 4) (by decide), encodeClass_present e (i := 5) (by decide), List.getD_cons_succ,
    List.getD_cons_zero, bitsAt, fieldAt_one]
  rw [hdst, hsrc, hvlan, htype, hport, hcarrier, hnat, hdom, haction, hcls]
  refine ⟨fun h => by omega, fun h => ?_, ⟨vlanOf_vlanNumber _, carrierOf_eq_some_iff.mpr rfl, actionOf_eq_some_iff.mpr rfl,
    classOf_code _⟩, ⟨hvalid, trivial, trivial⟩, eq_present fun v hv => ?_, eq_present fun v hv => ?_, eq_present fun v hv => ?_,
    eq_present fun v hv => ?_, eq_present fun v hv => ?_, hlegal⟩
  · obtain ⟨d, hd⟩ := Option.isSome_iff_exists.mp h.1
    have hsmall := hdomain d hd
    have hlarge := h.2
    rw [hd] at hlarge
    exact Nat.not_le.mpr hsmall hlarge
  all_goals simp [Option.mem_def.mp hv]

theorem decodeClass_encodeClass_empty : decodeClass (encodeClass ClassEntry.empty) = some ClassEntry.empty := by
  decide

/-! ### PORT -/

theorem readPort_parts (i : Nat) (s : State) :
    readPort i s =
      beBytes 4 (s.port (portOf i)).ingressLat ++ (beBytes 4 (s.port (portOf i)).egressLat ++
        (beBytes 4 (unsignedOf 32 (s.port (portOf i)).asym) ++ [(s.port (portOf i)).link.code])) := by
  simp [readPort]

theorem readPort_fields {i : Nat} {s : State} (h : (s.port (portOf i)).recordOk) :
    fieldAt (readPort i s) 0 4 = (s.port (portOf i)).ingressLat ∧
      fieldAt (readPort i s) 4 4 = (s.port (portOf i)).egressLat ∧
      signedOf 32 (fieldAt (readPort i s) 8 4) = (s.port (portOf i)).asym := by
  obtain ⟨hin, hout, hlow, hhigh⟩ := h
  rw [maxLatency] at hin hout
  rw [readPort_parts]
  refine ⟨?_, ?_, ?_⟩
  · rw [show fieldAt _ 0 4 = _ % 256 ^ 4 from fieldAt_beBytes ..]
    omega
  · rw [show fieldAt _ 4 4 = (s.port (portOf i)).egressLat % 256 ^ 4 by simp]
    omega
  · rw [show fieldAt _ 8 4 = unsignedOf 32 (s.port (portOf i)).asym % 256 ^ 4 by simp]
    exact signedOf_unsigned_field_of_range (n := 4) (by decide) hlow (by omega)

theorem writePort_readPort {i : Nat} {s : State} (h : (s.port (portOf i)).recordOk)
    (hasym : portOf i = .d → (s.port (portOf i)).asym = 0) : writePort i (readPort i s) s = .applied false s := by
  obtain ⟨hin, hout, hsigned⟩ := readPort_fields h
  simp only [writePort, hin, hout, hsigned]
  rw [if_neg]
  · exact congrArg (EntryResult.applied false) (s.setPort_self (portOf i))
  · rintro (hlarge | hlarge | ⟨hd, hne⟩)
    · exact Nat.not_le.mpr hlarge h.1
    · exact Nat.not_le.mpr hlarge h.2.1
    · exact hne (hasym hd)

/-! ### SERVO, CADENCE, LINES and LABELS -/

theorem readServo_parts (s : State) :
    readServo s =
      s.servoCfg.domain :: BitVec.ofNat 8 s.servoCfg.multiple :: BitVec.ofInt 8 s.servoCfg.probeCode ::
        (beBytes 4 s.servoCfg.probeIp.toNat ++ (beBytes 4 s.servoCfg.maxAdjust ++ (beBytes 2 s.servoCfg.kp ++
          (beBytes 2 s.servoCfg.ki ++ (beBytes 4 s.servoCfg.stepThreshold ++ (beBytes 4 s.servoCfg.outlierGate ++
            (beBytes 4 s.servoCfg.lockWindow ++ beBytes 2 s.servoCfg.holdoverLimit))))))) := by
  simp [readServo]

theorem signedOf_ofInt {z : Int} (hlow : -128 ≤ z) (hhigh : z ≤ 127) : signedOf 8 (BitVec.ofInt 8 z).toNat = z := by
  rw [signedOf_toNat, BitVec.toInt_ofInt, Int.bmod_eq_of_le (by omega) (by omega)]

theorem readServo_bytes {s : State} (h : s.servoCfg.legal) :
    byteAt (readServo s) 0 = s.servoCfg.domain ∧ (byteAt (readServo s) 1).toNat = s.servoCfg.multiple ∧
      signedOf 8 (byteAt (readServo s) 2).toNat = s.servoCfg.probeCode ∧ bitsAt 32 (readServo s) 3 4 = s.servoCfg.probeIp := by
  obtain ⟨⟨-, -, hmultiple⟩, ⟨hlow, hhigh⟩, -⟩ := h
  have hip : fieldAt (readServo s) 3 4 = s.servoCfg.probeIp.toNat := by
    rw [readServo_parts]
    simpa using s.servoCfg.probeIp.isLt
  rw [bitsAt, hip, BitVec.ofNat_toNat, BitVec.setWidth_eq]
  exact ⟨rfl, toNat_ofNat_of_lt (by omega), signedOf_ofInt (by omega) (by omega), rfl⟩

theorem readServo_fields {s : State} (h : s.servoCfg.legal) :
    fieldAt (readServo s) 7 4 = s.servoCfg.maxAdjust ∧ fieldAt (readServo s) 11 2 = s.servoCfg.kp ∧
      fieldAt (readServo s) 13 2 = s.servoCfg.ki ∧ fieldAt (readServo s) 15 4 = s.servoCfg.stepThreshold ∧
      fieldAt (readServo s) 19 4 = s.servoCfg.outlierGate ∧ fieldAt (readServo s) 23 4 = s.servoCfg.lockWindow ∧
      fieldAt (readServo s) 27 2 = s.servoCfg.holdoverLimit := by
  obtain ⟨-, -, ⟨-, hmax⟩, hkp, hki, hstep, ⟨-, hgate⟩, ⟨-, hlock⟩, hlimit⟩ := h
  rw [maxAdjustLimit] at hmax
  have hfits (n v : Nat) (hv : v < 256 ^ n) : v % 256 ^ n = v := Nat.mod_eq_of_lt hv
  rw [readServo_parts]
  refine ⟨Eq.trans ?_ (hfits 4 _ (by omega)), Eq.trans ?_ (hfits 2 _ (by omega)), Eq.trans ?_ (hfits 2 _ (by omega)),
    Eq.trans ?_ (hfits 4 _ (by omega)), Eq.trans ?_ (hfits 4 _ (by omega)), Eq.trans ?_ (hfits 4 _ (by omega)),
    Eq.trans ?_ (hfits 2 _ (by omega))⟩ <;> simp

theorem decodeServo_readServo {s : State} (h : s.servoCfg.legal) : decodeServo (readServo s) = some s.servoCfg := by
  obtain ⟨hdomain, hmultiple, hcode, hip⟩ := readServo_bytes h
  obtain ⟨hmax, hkp, hki, hstep, hgate, hlock, hlimit⟩ := readServo_fields h
  rw [decodeServo_eq_some_iff, hdomain, hmultiple, hcode, hip, hmax, hkp, hki, hstep, hgate, hlock, hlimit]
  obtain ⟨⟨h1, h2, h3⟩, ⟨h4, h5⟩, ⟨h6, h7⟩, h8, -, h9, ⟨h10, h11⟩, ⟨h12, h13⟩, -⟩ := h
  exact ⟨⟨h1, h2, h3, h4, h5, h6, h8, h9, h10, h11, h12, h13⟩, rfl, rfl, rfl, rfl, (Nat.min_eq_right h7).symm, rfl, rfl,
    rfl, rfl, rfl, rfl⟩

section
variable (k : Fin 4) (s : State)

theorem readCad_parts (n : Fin 8) :
    readCad k n s =
      s.banks[k].cad[n].mode.code :: s.banks[k].cad[n].shape.code :: s.banks[k].cad[n].policy.code ::
        (beBytes 4 s.banks[k].cad[n].num ++ (beBytes 4 s.banks[k].cad[n].den ++ (beBytes 4 s.banks[k].cad[n].phase ++
          (beBytes 4 s.banks[k].cad[n].width ++ encodeRun (if k = s.active then s.cad[n] else CadRun.reset))))) := by
  simp [readCad]

theorem readLine_parts (n : Fin 12) :
    readLine k n s =
      s.banks[k].lines[n].source.bytes ++
        [s.banks[k].lines[n].polarity.code, flagByte (decide (k = s.active) && s.pins[n])] := rfl

theorem readLabel_parts (m : Fin 2) :
    readLabel k m s =
      flagByte s.banks[k].labels[m].enable :: BitVec.ofNat 8 s.banks[k].labels[m].cadence ::
        (beBytes 2 s.banks[k].labels[m].delay ++ (beBytes 2 s.banks[k].labels[m].period ++
          (s.banks[k].labels[m].edge.code ::
            encodeSer s.banks[k].labels[m] (if k = s.active then s.ser[m] else Serializer.reset)))) := by
  simp [readLabel]

theorem readCaptureRec_parts (n : Fin 4) :
    readCaptureRec n s =
      s.capRec[n].sel.code :: BitVec.ofNat 8 s.capRec[n].qual :: s.capRec[n].mode.code ::
        s.capRec[n].bound.elim 255#8 (fun c => BitVec.ofNat 8 c) :: s.capRec[n].window.setWidth 8 :: s.cap[n].st.code ::
        BitVec.ofNat 8 s.cap[n].ring.length :: BitVec.ofNat 8 (bitsByte [s.cap[n].inWindow, s.cap[n].phase.isSome]) ::
        beBytes 8 (unsignedOf 64 (s.cap[n].phase.getD 0)) := by
  simp only [readCaptureRec]
  cases s.capRec[n].bound <;> rfl

theorem readNotify_parts (g : Fin 4) :
    readNotify g s =
      flagByte s.notifyCfg[g].dest.isSome :: (beBytes 6 ((s.notifyCfg[g].dest.map BitVec.toNat).getD 0) ++
        (portCode s.notifyCfg[g].egress :: (beBytes 2 s.notifyCfg[g].holdoff ++
          [s.notifyCfg[g].enable, s.groups[g].pending, flagByte (decide (s.groups[g].st ≠ .idle)),
            flagByte s.groups[g].reported]))) := by
  simp [readNotify]

end

theorem decodeCad_readCad {k : Fin 4} {n : Fin 8} {s : State} (h : s.banks[k].cad[n].legal) :
    decodeCad (readCad k n s) = some s.banks[k].cad[n] := by
  obtain ⟨⟨hnum, hnumMax⟩, ⟨hden, hdenMax⟩, hrate, hphase, hwidth, hfloor, hwidthMax⟩ := h
  have hfit : fitWidth (s.banks[k].cad[n].den * 10 ^ 9 / s.banks[k].cad[n].num) s.banks[k].cad[n].width =
      s.banks[k].cad[n].width := by
    have hroom : s.banks[k].cad[n].width ≤ s.banks[k].cad[n].den * 10 ^ 9 / s.banks[k].cad[n].num - 8 := hfloor
    rw [fitWidth, Nat.min_eq_right hroom, Nat.max_eq_right hwidth]
  have hfits (v : Nat) (hv : v ≤ 4294967295) : v % 256 ^ 4 = v := Nat.mod_eq_of_lt (by omega)
  have hnum4 : fieldAt (readCad k n s) 3 4 = s.banks[k].cad[n].num := by
    rw [readCad_parts]
    exact Eq.trans (by simp) (hfits _ (by unfold maxRate at hnumMax; omega))
  have hden4 : fieldAt (readCad k n s) 7 4 = s.banks[k].cad[n].den := by
    rw [readCad_parts]
    exact Eq.trans (by simp) (hfits _ (by unfold maxRate at hdenMax; omega))
  have hphase4 : fieldAt (readCad k n s) 11 4 = s.banks[k].cad[n].phase := by
    rw [readCad_parts]
    exact Eq.trans (by simp) (hfits _ hphase)
  have hwidth4 : fieldAt (readCad k n s) 15 4 = s.banks[k].cad[n].width := by
    rw [readCad_parts]
    exact Eq.trans (by simp) (hfits _ hwidthMax)
  rw [decodeCad_eq_some_iff, hnum4, hden4, hphase4, hwidth4, hfit]
  refine ⟨⟨modeOf_code _, shapeOf_code _, policyOf_code _⟩, ?_, rfl, rfl, rfl, rfl⟩
  omega

theorem decodeRoute_readLine (k : Fin 4) (n : Fin 12) (s : State) :
    decodeRoute (readLine k n s) = some s.banks[k].lines[n] := by
  rw [decodeRoute_eq_some_iff, readLine_parts]
  refine ⟨sourceOf_bytes _ _, ?_⟩
  rw [byteAt_append_right _ _ (Source.bytes_length _).le, Source.bytes_length]
  exact polarityOf_code _

theorem readLine_level (k : Fin 4) (n : Fin 12) (s : State) :
    byteAt (readLine k n s) 3 = 1#8 ↔ k = s.active ∧ s.pins[n] = true := by
  have hlevel : byteAt (readLine k n s) 3 = flagByte (decide (k = s.active) && s.pins[n]) := by
    rw [readLine_parts, byteAt_append_right _ _ (by rw [Source.bytes_length]; decide), Source.bytes_length]
    rfl
  rw [hlevel, flagByte_eq_one_iff, Bool.and_eq_true, decide_eq_true_iff]

theorem decodeLabel_readLabel {k : Fin 4} {m : Fin 2} {s : State} (hdelay : s.banks[k].labels[m].delay ≤ 65535)
    (hlow : 2 ≤ s.banks[k].labels[m].period) (hhigh : s.banks[k].labels[m].period ≤ 65535) :
    decodeLabel (readLabel k m s) = some s.banks[k].labels[m] := by
  have hfits (v : Nat) (hv : v ≤ 65535) : v % 256 ^ 2 = v := Nat.mod_eq_of_lt (by omega)
  have hdelay2 : fieldAt (readLabel k m s) 2 2 = s.banks[k].labels[m].delay := by
    rw [readLabel_parts]
    exact Eq.trans (by simp) (hfits _ hdelay)
  have hperiod2 : fieldAt (readLabel k m s) 4 2 = s.banks[k].labels[m].period := by
    rw [readLabel_parts]
    exact Eq.trans (by simp) (hfits _ hhigh)
  have hedge : byteAt (readLabel k m s) 6 = s.banks[k].labels[m].edge.code := by
    rw [readLabel_parts]
    simp
  have hcad : (byteAt (readLabel k m s) 1).toNat = s.banks[k].labels[m].cadence.val := toNat_ofNat_of_lt (by omega)
  rw [decodeLabel_eq_some_iff, hdelay2, hperiod2, hedge, hcad]
  exact ⟨⟨enableOf_flagByte _, finOf_val _, clockEdgeOf_code _⟩, by omega, rfl, rfl⟩

/-! ### CAPTURE, NOTIFY, MANAGERS and CIVIL -/

theorem decodeCapture_readCaptureRec {n : Fin 4} {s : State} (h : s.capRec[n].qual ≤ 255) :
    decodeCapture (readCaptureRec n s) = some s.capRec[n] := by
  rw [decodeCapture_eq_some_iff, bitsAt, fieldAt_one, readCaptureRec_parts]
  refine ⟨⟨selOf_code _, ringOf_code _, boundOf_byte _⟩, (toNat_ofNat_of_lt (by omega)).symm, ?_⟩
  have hwindow := s.capRec[n].window.isLt
  refine BitVec.eq_of_toNat_eq ?_
  rw [show byteAt _ 4 = s.capRec[n].window.setWidth 8 from rfl, BitVec.toNat_ofNat, BitVec.toNat_setWidth]
  omega

theorem decodeNotify_readNotify {g : Fin 4} {s : State} (h : s.notifyCfg[g].holdoff ≤ 65535) :
    decodeNotify (readNotify g s) = some s.notifyCfg[g] := by
  have hdest : fieldAt (readNotify g s) 1 6 = (s.notifyCfg[g].dest.map BitVec.toNat).getD 0 := by
    rw [readNotify_parts]
    exact Eq.trans (by simp) (Nat.mod_eq_of_lt (getD_map_lt (n := 256 ^ 6) (fun d => d.isLt) (by decide)))
  have hholdoff : fieldAt (readNotify g s) 8 2 = s.notifyCfg[g].holdoff := by
    rw [readNotify_parts]
    exact Eq.trans (b := s.notifyCfg[g].holdoff % 256 ^ 2) (by simp) (Nat.mod_eq_of_lt (by omega))
  have hflag (x : Bool) : decide (flagByte x ≠ 0) = x := by cases x <;> rfl
  rw [decodeNotify_eq_some_iff, bitsAt, hdest, hholdoff, readNotify_parts, byteAt_cons_zero, hflag]
  refine ⟨?_, eq_present fun d hd => ?_, rfl, by simp⟩
  · rw [show byteAt _ 7 = portCode s.notifyCfg[g].egress by simp]
    exact egressOf_portCode _
  · rw [Option.mem_def.mp hd]
    simp

/-- Settles O58: each table's decoder, in its field-by-field form, on the bytes read at each offset. -/
theorem writtenRecordsReadBack : Obligations.WrittenRecordsReadBack := by
  refine ⟨fun s i h => ?_, fun s h => ⟨?_, ?_⟩, fun s h => decodeServo_readServo h, fun s k n h => ?_, fun s k n => ?_,
    fun s k m h => ?_, fun s n h => ?_⟩
  · rw [readEntry_classify]
    rcases h i with ⟨hvalid, hlegal, hdomain⟩ | hempty
    · exact decodeClass_encodeClass hvalid hlegal hdomain
    · rw [hempty]
      exact decodeClass_encodeClass_empty
  · exact writePort_readPort (i := 0) h.1.1 nofun
  · obtain ⟨-, ⟨hrecord, -⟩, hasym, -⟩ := h
    exact writePort_readPort (i := 1) hrecord fun _ => hasym
  · rw [readEntry_cadence]
    exact decodeCad_readCad (h k n)
  · rw [readEntry_lines]
    exact ⟨decodeRoute_readLine k n s, readLine_level k n s⟩
  · obtain ⟨hlabels, -⟩ := h
    obtain ⟨hdelay, hlow, hhigh⟩ := hlabels k m
    rw [readEntry_labels]
    exact decodeLabel_readLabel hdelay hlow hhigh
  · obtain ⟨-, hqual, hholdoff, hlow, hhigh⟩ := h
    rw [readEntry_capture, readEntry_notify, readEntry_managers]
    refine ⟨decodeCapture_readCaptureRec (hqual n), decodeNotify_readNotify (hholdoff n), ?_, ?_⟩
    · have hfield : fieldAt (addrBytes s.managers[n]) 0 6 = s.managers[n].toNat :=
        (fieldAt_beBytes_self 6 _).trans (Nat.mod_eq_of_lt s.managers[n].isLt)
      rw [bitsAt, hfield, BitVec.ofNat_toNat, BitVec.setWidth_eq]
    · rw [show fieldAt (readEntry .civil 0 s) 0 2 = _ from fieldAt_beBytes_self 2 _]
      exact signedOf_unsigned_field_of_range (n := 2) (by decide) hlow (by omega)

end Sys2Proof.Machine
end

section
/-!
PROOFS. The fields that READ_TABLE and READ_CAPTURE return and no manager writes, each at its offset (R6, R67, R142,
R175, R185, R191, R207).
-/

namespace Sys2Proof.Machine

/-! ### Bytes within a part of a list -/

section
variable {b x : List Byte} {off n : Nat} (h : slice b off n = x)
include h

theorem slice_of_slice {j m : Nat} (hj : j + m ≤ n) : slice b (off + j) m = slice x j m := by
  rw [← h]
  simp only [slice, List.drop_take, List.take_take, List.drop_drop]
  rw [Nat.min_eq_left (by omega)]

theorem fieldAt_of_slice {j m : Nat} (hj : j + m ≤ n) : fieldAt b (off + j) m = fieldAt x j m :=
  congrArg beNat (slice_of_slice h hj)

theorem byteAt_of_slice {j : Nat} (hj : j < n) : byteAt b (off + j) = byteAt x j := by
  refine BitVec.eq_of_toNat_eq ?_
  rw [← fieldAt_one, ← fieldAt_one, fieldAt_of_slice h hj]

end

theorem slice_flatten {xs : List (List Byte)} {n i : Nat} {y : List Byte} (hlen : ∀ z ∈ xs, z.length = n)
    (h : xs[i]? = some y) : slice xs.flatten (n * i) n = y := by
  induction xs generalizing i with
  | nil => cases h
  | cons z zs ih =>
    have hz := hlen z List.mem_cons_self
    cases i with
    | zero =>
      obtain rfl := Option.some.inj h
      rw [List.flatten_cons, Nat.mul_zero, slice_append_left _ _ (by omega), slice_self _ hz.le]
    | succ i =>
      rw [List.flatten_cons, slice_append_right _ _ (by rw [hz, Nat.mul_succ]; omega), hz,
        show n * (i + 1) - n = n * i by rw [Nat.mul_succ]; omega]
      exact ih (fun w hw => hlen w (List.mem_cons_of_mem _ hw)) h

/-! ### The runtime of a cadence -/

theorem beBytes_zero (n : Nat) : beBytes n 0 = List.replicate n 0 := by
  induction n with
  | zero => rfl
  | succ n ih =>
    rw [beBytes, Nat.zero_div, ih]
    rfl

theorem timeBytes_zero : timeBytes 0 = List.replicate 10 0 := by
  rw [timeBytes_of_lt (by decide)]
  rfl

/-- The 20 bytes of an edge index and its time, where there is one (R142). -/
def edgeBytes (x : Option (Nat × Nat)) : List Byte :=
  beBytes 10 ((x.map Prod.fst).getD 0) ++ timeBytes ((x.map Prod.snd).getD 0)

@[simp] theorem edgeBytes_length (x : Option (Nat × Nat)) : (edgeBytes x).length = 20 := by simp [edgeBytes]

theorem edgeBytes_none : edgeBytes none = List.replicate 20 0 := by
  rw [edgeBytes, Option.map_none, Option.getD_none, Option.map_none, Option.getD_none, beBytes_zero, timeBytes_zero]
  rfl

theorem encodeRun_parts (x : CadRun) :
    encodeRun x =
      x.st.code :: flagByte x.pulse.isSome :: BitVec.ofNat 8 (bitsByte [x.st.held.isSome, x.last.isSome]) ::
        (edgeBytes x.st.held ++ edgeBytes x.last) := by
  simp [encodeRun, edgeBytes]

/-- What `b` holds from offset `off` on where it holds the 20 bytes of an edge. -/
theorem edgeBytes_fields {b : List Byte} {off i e : Nat} (h : slice b off 20 = edgeBytes (some (i, e))) :
    (i < 2 ^ 80 → fieldAt b off 10 = i) ∧
      (e < 2 ^ 48 * 10 ^ 9 → fieldAt b (off + 10) 6 = e / 10 ^ 9 ∧ fieldAt b (off + 10 + 6) 4 = e % 10 ^ 9) := by
  refine ⟨fun hi => ?_, fun he => ⟨?_, ?_⟩⟩
  · rw [show fieldAt b off 10 = _ from fieldAt_of_slice h (j := 0) (by decide)]
    exact Eq.trans (fieldAt_beBytes ..) (Nat.mod_eq_of_lt hi)
  · rw [fieldAt_of_slice h (by decide), edgeBytes, Option.map_some, Option.getD_some, Option.map_some, Option.getD_some,
      timeBytes_of_lt he]
    exact Eq.trans (b := e / 10 ^ 9 % 256 ^ 6) (by simp) (by omega)
  · rw [Nat.add_assoc, fieldAt_of_slice h (by decide), edgeBytes, Option.map_some, Option.getD_some, Option.map_some,
      Option.getD_some, timeBytes_of_lt he]
    exact Eq.trans (b := e % 10 ^ 9 % 256 ^ 4) (by simp) (by omega)

@[simp] theorem encodeRun_length (x : CadRun) : (encodeRun x).length = 43 := by simp [encodeRun_parts]

theorem encodeRun_reset : encodeRun CadRun.reset = List.replicate 43 0 := by
  rw [encodeRun_parts, show CadRun.reset.st.held = none from rfl, show CadRun.reset.last = none from rfl,
    edgeBytes_none]
  rfl

section
variable {s : State} {n : Fin 8}

theorem readCad_length (k : Fin 4) (n : Fin 8) (s : State) : (readCad k n s).length = 62 := by simp [readCad_parts]

/-- The runtime bytes of an entry of CADENCE. -/
theorem readCad_runtime (k : Fin 4) (n : Fin 8) (s : State) :
    slice (readCad k n s) 19 43 = encodeRun (if k = s.active then s.cad[n] else CadRun.reset) := by
  rw [readCad_parts]
  simp [slice_self]

/-- The runtime of a cadence as an entry of the active bank gives it, in its parts. -/
theorem readCad_active (n : Fin 8) (s : State) :
    byteAt (readCad s.active n s) 19 = s.cad[n].st.code ∧
      byteAt (readCad s.active n s) 20 = flagByte s.cad[n].pulse.isSome ∧
      byteAt (readCad s.active n s) 21 = BitVec.ofNat 8 (bitsByte [s.cad[n].st.held.isSome, s.cad[n].last.isSome]) ∧
      slice (readCad s.active n s) 22 20 = edgeBytes s.cad[n].st.held ∧
      slice (readCad s.active n s) 42 20 = edgeBytes s.cad[n].last := by
  rw [readCad_parts, if_pos rfl, encodeRun_parts]
  refine ⟨by simp, by simp, by simp, ?_, ?_⟩
  · simp [slice_append_left, slice_self]
  · simp [slice_self]

theorem CadState.held_eq_none_iff {x : CadState} : x.held = none ↔ ∀ i e, x ≠ .running i e ∧ x ≠ .armed i e := by
  cases x <;> simp [CadState.held]

theorem CadState.held_eq_some_iff {x : CadState} {i e : Nat} : x.held = some (i, e) ↔ x = .running i e ∨ x = .armed i e := by
  cases x <;> simp [CadState.held]

theorem CadState.isSome_held {x : CadState} : x.held.isSome = true ↔ ∃ i e, x = .running i e ∨ x = .armed i e := by
  rw [Option.isSome_iff_exists, Prod.exists]
  exact exists_congr fun i => exists_congr fun e => CadState.held_eq_some_iff

theorem isSome_iff_ne_none {α : Type} {x : Option α} : x.isSome = true ↔ x ≠ none := by
  cases x <;> simp

end

/-! ### The runtime of a serializer -/

@[simp] theorem encodeSer_length (c : LabelCfg) (x : Serializer) : (encodeSer c x).length = 8 := by
  unfold encodeSer
  split
  · split <;> simp
  · simp

theorem encodeSer_reset (c : LabelCfg) : encodeSer c Serializer.reset = List.replicate 8 0 := rfl

section
variable {c : LabelCfg} {x : Serializer}

/-- A serializer that counts as IDLE shows its STEP_SEEN flag alone (R175). -/
theorem encodeSer_of_idle (h : ∀ w, x.word = some w → c.delay + 96 * c.period ≤ w.count) :
    encodeSer c x = 0 :: flagByte x.stepSeen :: List.replicate 6 0 := by
  unfold encodeSer
  split
  next w hw => rw [if_pos (isDone_iff.mpr (h w hw))]; rfl
  next => rfl

theorem encodeSer_of_word {w : LabelWord} (hw : x.word = some w) (h : w.count < c.delay + 96 * c.period) :
    encodeSer c x = 1 :: flagByte x.stepSeen :: BitVec.ofNat 8 (bitPosition c w) :: beBytes 5 w.index := by
  unfold encodeSer
  split
  next v hv =>
    obtain rfl := Option.some.inj (hv.symm.trans hw)
    rw [if_neg (Bool.eq_false_iff.mp (not_isDone_iff.mpr h))]
    rfl
  next hnone => cases hnone.symm.trans hw

end

theorem bitPosition_of_delay {c : LabelCfg} {w : LabelWord} (h : w.count < c.delay) : bitPosition c w = 255 := if_pos h

theorem bitPosition_of_bit {c : LabelCfg} {w : LabelWord} {i j : Nat} (hj : j < c.period)
    (h : w.count = c.delay + i * c.period + j) : bitPosition c w = i := by
  rw [bitPosition, if_neg (by omega), h, Nat.add_assoc, Nat.add_sub_cancel_left, Nat.mul_comm,
    Nat.mul_add_div (by omega), Nat.div_eq_of_lt hj, Nat.add_zero]

theorem readLabel_length (k : Fin 4) (m : Fin 2) (s : State) : (readLabel k m s).length = 15 := by simp [readLabel_parts]

theorem readLabel_runtime (k : Fin 4) (m : Fin 2) (s : State) :
    slice (readLabel k m s) 7 8 = encodeSer s.banks[k].labels[m] (if k = s.active then s.ser[m] else Serializer.reset) := by
  rw [readLabel_parts]
  simp [slice_self]

theorem readLabel_of_idle {m : Fin 2} {s : State}
    (h : ∀ w, s.ser[m].word = some w →
      s.banks[s.active].labels[m].delay + 96 * s.banks[s.active].labels[m].period ≤ w.count) :
    byteAt (readLabel s.active m s) 7 = 0#8 ∧ byteAt (readLabel s.active m s) 8 = flagByte s.ser[m].stepSeen ∧
      slice (readLabel s.active m s) 9 6 = List.replicate 6 0 := by
  rw [readLabel_parts, if_pos rfl, encodeSer_of_idle h]
  refine ⟨by simp, by simp, ?_⟩
  simp
  rfl

theorem readLabel_of_word {m : Fin 2} {s : State} {w : LabelWord} (hw : s.ser[m].word = some w)
    (h : w.count < s.banks[s.active].labels[m].delay + 96 * s.banks[s.active].labels[m].period) :
    byteAt (readLabel s.active m s) 7 = 1#8 ∧ byteAt (readLabel s.active m s) 8 = flagByte s.ser[m].stepSeen ∧
      byteAt (readLabel s.active m s) 9 = BitVec.ofNat 8 (bitPosition s.banks[s.active].labels[m] w) ∧
      fieldAt (readLabel s.active m s) 10 5 = w.index % 2 ^ 40 := by
  rw [readLabel_parts, if_pos rfl, encodeSer_of_word hw h]
  exact ⟨by simp, by simp, by simp, by simp⟩

/-! ### PORT, CAPTURE and NOTIFY -/

theorem readPort_link (i : Nat) (s : State) :
    (readPort i s).length = 13 ∧ (byteAt (readPort i s) 12 = 1#8 ↔ (s.port (portOf i)).link = .up) := by
  rw [readPort_parts]
  refine ⟨by simp, ?_⟩
  rw [show byteAt _ 12 = (s.port (portOf i)).link.code by simp]
  cases (s.port (portOf i)).link <;> decide

/-- The phase error that 8 bytes hold: zero without one (R185, R191). -/
theorem phase_fields {b : List Byte} {off : Nat} {x : CapLine}
    (h : slice b off 8 = beBytes 8 (unsignedOf 64 (x.phase.getD 0))) :
    (x.phase = none → slice b off 8 = List.replicate 8 0) ∧
      ∀ e, x.phase = some e → -(2 ^ 63) ≤ e → e < 2 ^ 63 → signedOf 64 (fieldAt b off 8) = e := by
  refine ⟨fun hnone => ?_, fun e he hlow hhigh => ?_⟩
  · rw [h, hnone]
    rfl
  · rw [show fieldAt b off 8 = _ from congrArg beNat h, he, Option.getD_some, beNat_beBytes]
    exact signedOf_unsigned_field_of_range (n := 8) (by decide) hlow hhigh

theorem LineState.code_eq_one_iff {x : LineState} : x.code = 1#8 ↔ x = .full := by cases x <;> decide

/-- The runtime of a capture line in its entry of CAPTURE (R191). -/
theorem readCaptureRec_runtime (n : Fin 4) (s : State) :
    (readCaptureRec n s).length = 16 ∧ byteAt (readCaptureRec n s) 5 = s.cap[n].st.code ∧
      byteAt (readCaptureRec n s) 6 = BitVec.ofNat 8 s.cap[n].ring.length ∧
      byteAt (readCaptureRec n s) 7 = BitVec.ofNat 8 (bitsByte [s.cap[n].inWindow, s.cap[n].phase.isSome]) ∧
      slice (readCaptureRec n s) 8 8 = beBytes 8 (unsignedOf 64 (s.cap[n].phase.getD 0)) := by
  rw [readCaptureRec_parts]
  exact ⟨by simp, rfl, rfl, rfl, by simp [slice_self]⟩

@[simp] theorem stampBytes_length (y : CapStamp) : (stampBytes y).length = 11 := by simp [stampBytes]

theorem captureBody_parts (x : CapLine) :
    captureBody x =
      x.st.code :: BitVec.ofNat 8 x.ring.length :: flagByte x.inWindow :: flagByte x.phase.isSome ::
        (beBytes 8 (unsignedOf 64 (x.phase.getD 0)) ++ (x.ring.map stampBytes).flatten) := by
  simp [captureBody]

theorem captureBody_line (x : CapLine) :
    byteAt (captureBody x) 0 = x.st.code ∧ byteAt (captureBody x) 1 = BitVec.ofNat 8 x.ring.length ∧
      byteAt (captureBody x) 2 = flagByte x.inWindow ∧ byteAt (captureBody x) 3 = flagByte x.phase.isSome ∧
      slice (captureBody x) 4 8 = beBytes 8 (unsignedOf 64 (x.phase.getD 0)) := by
  rw [captureBody_parts]
  exact ⟨rfl, rfl, rfl, rfl, by simp [slice_append_left, slice_self]⟩

theorem captureBody_length (x : CapLine) : (captureBody x).length = 12 + 11 * x.ring.length := by
  have hsum : ((x.ring.map stampBytes).map List.length).sum = x.ring.length * 11 := by
    rw [List.map_map, show List.length ∘ stampBytes = fun _ => 11 from funext stampBytes_length]
    simp
  rw [captureBody_parts]
  simp only [List.length_cons, List.length_append, beBytes_length, List.length_flatten, hsum]
  omega

/-- Stamp `i` of a ring in the body of READ_CAPTURE (R185). -/
theorem captureBody_stamp {x : CapLine} {i : Nat} {y : CapStamp} (h : x.ring[i]? = some y) :
    slice (captureBody x) (12 + 11 * i) 11 = stampBytes y := by
  have hstamp : (x.ring.map stampBytes)[i]? = some (stampBytes y) := by rw [List.getElem?_map, h]; rfl
  have hlen : ∀ z ∈ x.ring.map stampBytes, z.length = 11 := fun z hz => by
    obtain ⟨w, -, rfl⟩ := List.mem_map.mp hz
    exact stampBytes_length w
  have hhead : captureBody x =
      (x.st.code :: BitVec.ofNat 8 x.ring.length :: flagByte x.inWindow :: flagByte x.phase.isSome ::
        beBytes 8 (unsignedOf 64 (x.phase.getD 0))) ++ (x.ring.map stampBytes).flatten := captureBody_parts x
  rw [hhead, slice_append_add (by simp)]
  exact slice_flatten hlen hstamp

theorem stampBytes_fields {b : List Byte} {off : Nat} {y : CapStamp} (h : slice b off 11 = stampBytes y) :
    (y.sec < 2 ^ 48 → fieldAt b off 6 = y.sec) ∧ (y.ns < 10 ^ 9 → fieldAt b (off + 6) 4 = y.ns) ∧
      (byteAt b (off + 10)).getLsbD 0 = y.falling ∧ (byteAt b (off + 10)).getLsbD 1 = y.beforeStep := by
  refine ⟨fun hsec => ?_, fun hns => ?_, ?_⟩
  · rw [show fieldAt b off 6 = _ from fieldAt_of_slice h (j := 0) (by decide), stampBytes, List.append_assoc]
    exact Eq.trans (fieldAt_beBytes ..) (Nat.mod_eq_of_lt hsec)
  · rw [fieldAt_of_slice h (by decide), stampBytes, List.append_assoc]
    exact Eq.trans (b := y.ns % 256 ^ 4) (by simp) (by omega)
  · have hbits : byteAt (stampBytes y) 10 = BitVec.ofNat 8 (bitsByte [y.falling, y.beforeStep]) := by simp [stampBytes]
    rw [byteAt_of_slice h (by decide), hbits]
    exact bitsByte_two _ _

theorem readNotify_runtime (g : Fin 4) (s : State) :
    (readNotify g s).length = 14 ∧ byteAt (readNotify g s) 11 = s.groups[g].pending ∧
      byteAt (readNotify g s) 12 = flagByte (decide (s.groups[g].st ≠ .idle)) ∧
      byteAt (readNotify g s) 13 = flagByte s.groups[g].reported := by
  rw [readNotify_parts]
  exact ⟨by simp, by simp, by simp, by simp⟩

/-! ### SOURCES -/

theorem readSource_of_empty {i : Fin 8} {s : State} (h : s.sources[i] = none) : readSource i s = List.replicate 41 0 := by
  simp only [readSource, h]

section
variable {i : Fin 8} {s : State} {r : SourceRec} (h : s.sources[i] = some r)
include h

theorem readSource_parts :
    readSource i s =
      1 :: r.st.code :: flagByte r.selected :: flagByte r.civilValid :: (beBytes 8 r.sender.toNat ++
        (beBytes 2 r.portNo.toNat ++ (beBytes 8 r.tsIdent.toNat ++ (r.pref1 :: r.cls :: r.accuracy ::
          (beBytes 2 r.variance.toNat ++ (r.pref2 :: (beBytes 2 r.hops.toNat ++ (beBytes 2 (unsignedOf 16 r.civil) ++
            (BitVec.ofInt 8 r.interval :: (beBytes 2 r.lastSeq.toNat ++ (beBytes 2 r.count ++
              beBytes 4 (min 4294967295 (s.since r.lastHeard / 256000))))))))))))) := by
  simp only [readSource, h, List.append_assoc, List.cons_append, List.nil_append]

theorem readSource_flags :
    (readSource i s).length = 41 ∧ byteAt (readSource i s) 0 = 1#8 ∧ (byteAt (readSource i s) 1 = 1#8 ↔ r.st = .eligible) ∧
      (byteAt (readSource i s) 2 = 1#8 ↔ r.selected = true) ∧ (byteAt (readSource i s) 3 = 1#8 ↔ r.civilValid = true) := by
  rw [readSource_parts h]
  refine ⟨by simp, rfl, ?_, flagByte_eq_one_iff, flagByte_eq_one_iff⟩
  rw [show byteAt _ 1 = r.st.code from rfl]
  cases r.st <;> decide

/-- The identity and the ranking fields of a record (R52, R67). -/
theorem readSource_ranking :
    fieldAt (readSource i s) 4 8 = r.sender.toNat ∧ fieldAt (readSource i s) 12 2 = r.portNo.toNat ∧
      fieldAt (readSource i s) 14 8 = r.tsIdent.toNat ∧ byteAt (readSource i s) 22 = r.pref1 ∧
      byteAt (readSource i s) 23 = r.cls ∧ byteAt (readSource i s) 24 = r.accuracy ∧
      fieldAt (readSource i s) 25 2 = r.variance.toNat ∧ byteAt (readSource i s) 27 = r.pref2 ∧
      fieldAt (readSource i s) 28 2 = r.hops.toNat := by
  rw [readSource_parts h]
  refine ⟨?_, ?_, ?_, by simp, by simp, by simp, ?_, by simp, ?_⟩
  · simpa using r.sender.isLt
  · simpa using r.portNo.isLt
  · simpa using r.tsIdent.isLt
  · simpa using r.variance.isLt
  · simpa using r.hops.isLt

/-- The civil offset, and what the record counts and times (R58, R67). -/
theorem readSource_counts :
    (-32768 ≤ r.civil → r.civil ≤ 32767 → signedOf 16 (fieldAt (readSource i s) 30 2) = r.civil) ∧
      (-128 ≤ r.interval → r.interval ≤ 127 → signedOf 8 (byteAt (readSource i s) 32).toNat = r.interval) ∧
      fieldAt (readSource i s) 33 2 = r.lastSeq.toNat ∧ (r.count < 65536 → fieldAt (readSource i s) 35 2 = r.count) ∧
      fieldAt (readSource i s) 37 4 = min 4294967295 (s.since r.lastHeard / 256000) := by
  rw [readSource_parts h]
  refine ⟨fun hlow hhigh => ?_, fun hlow hhigh => ?_, ?_, fun hcount => ?_, ?_⟩
  · rw [show fieldAt _ 30 2 = unsignedOf 16 r.civil % 256 ^ 2 by simp]
    exact signedOf_unsigned_field_of_range (n := 2) (by decide) hlow (by omega)
  · rw [show byteAt _ 32 = BitVec.ofInt 8 r.interval by simp]
    exact signedOf_ofInt hlow hhigh
  · simpa using r.lastSeq.isLt
  · simpa using hcount
  · exact Eq.trans (b := min 4294967295 (s.since r.lastHeard / 256000) % 256 ^ 4) (by simp) (by omega)

end

theorem CadState.code_toNat (x : CadState) :
    x.code.toNat =
      (match x with | .off => 0 | .waiting => 1 | .running _ _ => 2 | .idle => 3 | .armed _ _ => 4 | .done => 5) := by
  cases x <;> rfl

/-- Settles O59: each part of an entry at its place in the bytes read, and its fields within the part. -/
theorem runtimeFieldsReadAtTheirOffsets : Obligations.RuntimeFieldsReadAtTheirOffsets := by
  intro s zeros timeAt phaseAt
  refine ⟨fun p => ?_, fun k n => ?_, fun k m => ?_, fun n => ?_, fun g => ?_, fun i => ?_⟩
  · cases p
    · exact ⟨(readPort_link 0 s).1, (readPort_link 0 s).2, fun h => readPort_fields (i := 0) h.1.1⟩
    · refine ⟨(readPort_link 1 s).1, (readPort_link 1 s).2, fun h => ?_⟩
      obtain ⟨-, ⟨hrecord, -⟩, -⟩ := h
      exact readPort_fields (i := 1) hrecord
  · intro b x
    have hb : b = readCad k n s := readEntry_cadence s k n
    rw [hb]
    refine ⟨readCad_length k n s, fun hk => ?_, fun hk => ?_⟩
    · exact (readCad_runtime k n s).trans ((congrArg encodeRun (if_neg hk)).trans encodeRun_reset)
    · subst hk
      obtain ⟨hst, hpulse, hbits, hheld, hlast⟩ := readCad_active n s
      have hflags := bitsByte_two s.cad[n].st.held.isSome s.cad[n].last.isSome
      rw [hst, hpulse, hbits, hflags.1, hflags.2]
      refine ⟨CadState.code_toNat _, flagByte_eq_one_iff.trans isSome_iff_ne_none, CadState.isSome_held,
        isSome_iff_ne_none, fun h => ?_, fun i e h => ?_, fun h => ?_, fun i e h => ?_⟩
      · exact hheld.trans ((congrArg edgeBytes (CadState.held_eq_none_iff.mpr h)).trans edgeBytes_none)
      · exact edgeBytes_fields (hheld.trans (congrArg edgeBytes (CadState.held_eq_some_iff.mpr h)))
      · exact hlast.trans ((congrArg edgeBytes h).trans edgeBytes_none)
      · exact edgeBytes_fields (hlast.trans (congrArg edgeBytes h))
  · intro b c ends
    have hb : b = readLabel k m s := readEntry_labels s k m
    rw [hb]
    refine ⟨readLabel_length k m s, fun hk => ?_, fun hk => ?_⟩
    · exact (readLabel_runtime k m s).trans ((congrArg (encodeSer _) (if_neg hk)).trans (encodeSer_reset _))
    · subst hk
      have hseen : byteAt (readLabel s.active m s) 8 = flagByte s.ser[m].stepSeen := by
        by_cases hidle : ∀ w, s.ser[m].word = some w → ends ≤ w.count
        · exact (readLabel_of_idle hidle).2.1
        · push Not at hidle
          obtain ⟨w, hw, hlt⟩ := hidle
          exact (readLabel_of_word hw hlt).2.1
      refine ⟨hseen ▸ flagByte_eq_one_iff, fun h => ?_, fun w hw hlt => ?_⟩
      · obtain ⟨hstate, -, hzero⟩ := readLabel_of_idle h
        exact ⟨hstate, hzero⟩
      · obtain ⟨hstate, -, hpos, hindex⟩ := readLabel_of_word hw hlt
        refine ⟨hstate, hindex, fun h => ?_, fun i j hi hj hcount => ?_⟩
        · rw [hpos, bitPosition_of_delay h]
        · rw [hpos, bitPosition_of_bit hj hcount]
          exact toNat_ofNat_of_lt (by omega)
  · intro x b d
    have hb : b = readCaptureRec n s := readEntry_capture s n
    rw [hb]
    obtain ⟨hlen, hst, hring, hflags, hphase⟩ := readCaptureRec_runtime n s
    obtain ⟨hst', hring', hwindow, hpresent, hphase'⟩ := captureBody_line s.cap[n]
    have hbits := bitsByte_two s.cap[n].inWindow s.cap[n].phase.isSome
    have hcount : (BitVec.ofNat 8 s.cap[n].ring.length).toNat = s.cap[n].ring.length % 256 := BitVec.toNat_ofNat ..
    refine ⟨hlen, hst ▸ LineState.code_eq_one_iff, (congrArg BitVec.toNat hring).trans hcount, hflags ▸ hbits.1, ?_,
      phase_fields hphase, captureBody_length _, hst' ▸ LineState.code_eq_one_iff,
      (congrArg BitVec.toNat hring').trans hcount, hwindow ▸ flagByte_eq_one_iff, ?_, phase_fields hphase',
      fun i y hy => stampBytes_fields (captureBody_stamp hy)⟩
    · rw [hflags, hbits.2]
      exact isSome_iff_ne_none
    · exact hpresent ▸ flagByte_eq_one_iff.trans isSome_iff_ne_none
  · intro b
    have hb : b = readNotify g s := readEntry_notify s g
    rw [hb]
    obtain ⟨hlen, hpending, hst, hreported⟩ := readNotify_runtime g s
    rw [hst, hreported]
    exact ⟨hlen, hpending, flagByte_eq_one_iff.trans decide_eq_true_iff, flagByte_eq_one_iff⟩
  · intro b
    have hb : b = readSource i s := readEntry_sources s i
    rw [hb]
    refine ⟨readSource_of_empty, fun r h => ?_⟩
    obtain ⟨hlen, hpresent, hst, hselected, hcivil⟩ := readSource_flags h
    obtain ⟨h1, h2, h3, h4, h5, h6, h7, h8, h9⟩ := readSource_ranking h
    exact ⟨hlen, hpresent, hst, hselected, hcivil, h1, h2, h3, h4, h5, h6, h7, h8, h9, readSource_counts h⟩

end Sys2Proof.Machine
end

section
/-!
PROOFS. What writing an entry of CADENCE, LINES or LABELS does (R120, R121, R138, R139, R150, R160, R172).
-/

namespace Sys2Proof.Machine

/-! ### The entries that a pending switch refuses (R150) -/

theorem writeBlocked_cadence_iff {s : State} {k : Fin 4} {n : Fin 8} :
    writeBlocked s k (some n) = true ↔
      (∃ q ∈ s.switch, k = q.target) ∨ (k = s.active ∧ ∃ q ∈ s.switch, q.trigger = .atEdge n) := by
  unfold writeBlocked
  cases s.switch with
  | none => simp
  | some q =>
    cases ht : q.trigger with
    | atEdge c =>
      simp only [ht, Option.mem_def, Option.some.injEq, exists_eq_left', Bool.or_eq_true, decide_eq_true_iff,
        Trigger.atEdge.injEq, eq_comm (a := n)]
    | atTime sec ns => simp [ht]

theorem writeBlocked_none_iff {s : State} {k : Fin 4} : writeBlocked s k none = true ↔ ∃ q ∈ s.switch, k = q.target := by
  unfold writeBlocked
  cases s.switch with
  | none => simp
  | some q => cases ht : q.trigger <;> simp [ht]

/-! ### Which records are accepted -/

theorem decodeCad_accepts {b : List Byte} :
    (∃ r, decodeCad b = some r) ↔
      ¬ (2 < (byteAt b 0).toNat ∨ 1 < (byteAt b 1).toNat ∨ 1 < (byteAt b 2).toNat ∨ fieldAt b 3 4 = 0 ∨
        fieldAt b 7 4 = 0 ∨ 16777215 < fieldAt b 3 4 ∨ 16777215 < fieldAt b 7 4 ∨
        fieldAt b 7 4 * 10 ^ 7 < fieldAt b 3 4) := by
  constructor
  · rintro ⟨r, hr⟩
    obtain ⟨⟨hm, hs, hp⟩, hgood, hnum, hden, -⟩ := decodeCad_eq_some_iff.mp hr
    rw [hnum, hden, maxRate] at hgood
    have hmode := code_lt ((modeOf_eq _).symm.trans hm)
    have hshape := code_lt ((shapeOf_eq _).symm.trans hs)
    have hpolicy := code_lt ((policyOf_eq _).symm.trans hp)
    simp only [List.length_cons, List.length_nil] at hmode hshape hpolicy
    omega
  · intro hgood
    obtain ⟨m, hm⟩ := exists_code (xs := [CadMode.off, .continuous, .oneShot]) (n := (byteAt b 0).toNat)
      (by simp only [List.length_cons, List.length_nil]; omega)
    obtain ⟨sh, hs⟩ := exists_code (xs := [Shape.pulse, .square]) (n := (byteAt b 1).toNat)
      (by simp only [List.length_cons, List.length_nil]; omega)
    obtain ⟨p, hp⟩ := exists_code (xs := [Policy.always, .whenTraced]) (n := (byteAt b 2).toNat)
      (by simp only [List.length_cons, List.length_nil]; omega)
    refine ⟨{ mode := m, num := fieldAt b 3 4, den := fieldAt b 7 4, phase := fieldAt b 11 4, shape := sh,
              width := fitWidth (fieldAt b 7 4 * 10 ^ 9 / fieldAt b 3 4) (fieldAt b 15 4), policy := p },
      decodeCad_eq_some_iff.mpr ⟨⟨(modeOf_eq _).trans hm, (shapeOf_eq _).trans hs, (policyOf_eq _).trans hp⟩, ?_, rfl, rfl,
        rfl, rfl⟩⟩
    dsimp only
    rw [maxRate]
    omega

theorem decodeLabel_accepts {b : List Byte} :
    (∃ c, decodeLabel b = some c) ↔
      ¬ (1 < (byteAt b 0).toNat ∨ 7 < (byteAt b 1).toNat ∨ 1 < (byteAt b 6).toNat ∨ fieldAt b 4 2 < 2) := by
  constructor
  · rintro ⟨c, hc⟩
    obtain ⟨⟨he, hcad, hk⟩, hgood, -, hperiod⟩ := decodeLabel_eq_some_iff.mp hc
    have henable := code_lt ((enableOf_eq _).symm.trans he)
    have hedge := code_lt ((clockEdgeOf_eq _).symm.trans hk)
    have hval := finOf_eq_some_iff.mp hcad
    simp only [List.length_cons, List.length_nil] at henable hedge
    omega
  · intro hgood
    obtain ⟨e, he⟩ := exists_code (xs := [false, true]) (n := (byteAt b 0).toNat)
      (by simp only [List.length_cons, List.length_nil]; omega)
    obtain ⟨k, hk⟩ := exists_code (xs := [ClockEdge.rising, .falling]) (n := (byteAt b 6).toNat)
      (by simp only [List.length_cons, List.length_nil]; omega)
    refine ⟨{ enable := e, cadence := ⟨(byteAt b 1).toNat, by omega⟩, delay := fieldAt b 2 2, period := fieldAt b 4 2, edge := k },
      decodeLabel_eq_some_iff.mpr ⟨⟨(enableOf_eq _).trans he, finOf_of_lt _, (clockEdgeOf_eq _).trans hk⟩, ?_, rfl, rfl⟩⟩
    exact fun h => hgood (.inr (.inr (.inr h)))

theorem enable_of_byte {n : Nat} {e : Bool} (h : enableOf n = some e) : e = decide (n = 1) := by
  match n with
  | 0 | 1 => cases h; rfl
  | _ + 2 => cases h

theorem eq_none_of_not_exists {α : Type} {x : Option α} (h : ¬ ∃ r, x = some r) : x = none :=
  Option.eq_none_iff_forall_ne_some.mpr fun r hr => h ⟨r, hr⟩

/-! ### One write -/

section
variable {s : State} {k : Fin 4} {b : List Byte}

theorem writeCad_eq (n : Fin 8) :
    writeEntry (.cadence k) n b s =
      if writeBlocked s k (some n) then .refused .switchPending
      else (decodeCad b).elim (.refused .badValue) fun r =>
        .applied (decide (r.width ≠ fieldAt b 15 4)) (storeCad k n r s) := by
  simp only [writeEntry, writeCad, finOf_val]
  cases decodeCad b <;> rfl

theorem writeLine_eq (n : Fin 12) :
    writeEntry (.lines k) n b s =
      if writeBlocked s k none then .refused .switchPending
      else (decodeRoute b).elim (.refused .badValue) fun r => .applied false (s.setRoute k n r) := by
  simp only [writeEntry, writeLine, finOf_val]
  cases decodeRoute b <;> rfl

theorem writeLabel_eq (m : Fin 2) :
    writeEntry (.labels k) m b s =
      if writeBlocked s k none then .refused .switchPending
      else (decodeLabel b).elim (.refused .badValue) fun c => .applied false (storeLabel k m c s) := by
  simp only [writeEntry, writeLabel, finOf_val]
  cases decodeLabel b <;> rfl

theorem storeCad_of_kept {n : Fin 8} {r : CadRec} (h : k ≠ s.active ∨ s.banks[k].cad[n] = r) :
    storeCad k n r s = s.setCadRec k n r := if_neg fun ⟨hk, hr⟩ => h.elim (fun h => h hk) hr

theorem storeCad_of_changed {n : Fin 8} {r : CadRec} (hk : k = s.active) (hr : s.banks[k].cad[n] ≠ r) :
    storeCad k n r s = endEvent s (restartCad n r (laterThanNow s) (s.setCadRec k n r)) := if_pos ⟨hk, hr⟩

theorem storeLabel_of_kept {m : Fin 2} {c : LabelCfg} (h : k ≠ s.active ∨ s.banks[k].labels[m] = c) :
    storeLabel k m c s = s.setLabel k m c := if_neg fun ⟨hk, hc⟩ => h.elim (fun h => h hk) hc

theorem storeLabel_of_changed {m : Fin 2} {c : LabelCfg} (hk : k = s.active) (hc : s.banks[k].labels[m] ≠ c) :
    storeLabel k m c s = (s.setLabel k m c).setSer m (s.ser[m].abandon s.banks[k].labels[m]) := if_pos ⟨hk, hc⟩

end

/-- A word that is lost returns its STEP_SEEN value to the flag (R172, R173). -/
theorem abandon_eq (c : LabelCfg) (x : Serializer) :
    x.abandon c =
      { x with
        word := none
        stepSeen := x.stepSeen || x.word.elim false fun w => decide (w.count < c.delay + 96 * c.period) && w.stepSeen } := by
  cases hw : x.word with
  | none =>
    rw [abandon_of_none hw, Option.elim_none, Bool.or_false, ← hw]
  | some w =>
    have hdone : (!w.isDone c) = decide (w.count < c.delay + 96 * c.period) := by
      rw [LabelWord.isDone, wordTicks, ← decide_not]
      exact decide_eq_decide.mpr Nat.not_le
    rw [abandon_of_word hw, hdone, Option.elim_some]

/-- Settles O55: each table's write in its two checks, and what is stored by the bank and the record it replaces. -/
theorem writtenBankRecordsTakeEffect : Obligations.WrittenBankRecordsTakeEffect := by
  intro s k b old store target byte
  refine ⟨fun n => ?_, fun n => ?_, fun m => ?_⟩
  · intro blocked result num den bad
    have hresult : result = _ := writeCad_eq n
    refine ⟨fun h => hresult.trans (if_pos (writeBlocked_cadence_iff.mpr h)), fun h hbad => ?_, fun h hgood => ?_⟩
    · rw [hresult, if_neg (writeBlocked_cadence_iff.not.mpr h),
        eq_none_of_not_exists (decodeCad_accepts.not.mpr (not_not.mpr hbad))]
      rfl
    · obtain ⟨r, hr⟩ := decodeCad_accepts.mpr hgood
      obtain ⟨-, -, hnum, hden, hphase, hwidth⟩ := decodeCad_eq_some_iff.mp hr
      rw [hden, hnum] at hwidth
      have happlied : result = .applied (decide (r.width ≠ fieldAt b 15 4)) (storeCad k n r s) := by
        rw [hresult, if_neg (writeBlocked_cadence_iff.not.mpr h), hr]
        rfl
      refine ⟨r, hr, hnum, hden, hphase, hwidth, fun hkept => ?_, fun hk hne => ?_⟩
      · rw [happlied, storeCad_of_kept hkept]
        rfl
      · rw [happlied, storeCad_of_changed hk hne]
        rfl
  · intro result
    have hresult : result = _ := writeLine_eq n
    refine ⟨fun h => hresult.trans (if_pos (writeBlocked_none_iff.mpr h)), fun h hnone => ?_, fun r h hr => ?_⟩
    · rw [hresult, if_neg (writeBlocked_none_iff.not.mpr h), hnone]
      rfl
    · rw [hresult, if_neg (writeBlocked_none_iff.not.mpr h), hr]
      rfl
  · intro result bad
    have hresult : result = _ := writeLabel_eq m
    refine ⟨fun h => hresult.trans (if_pos (writeBlocked_none_iff.mpr h)), fun h hbad => ?_, fun h hgood => ?_⟩
    · rw [hresult, if_neg (writeBlocked_none_iff.not.mpr h),
        eq_none_of_not_exists (decodeLabel_accepts.not.mpr (not_not.mpr hbad))]
      rfl
    · obtain ⟨c, hc⟩ := decodeLabel_accepts.mpr hgood
      obtain ⟨⟨he, hcad, -⟩, -, hdelay, hperiod⟩ := decodeLabel_eq_some_iff.mp hc
      have happlied : result = .applied false (storeLabel k m c s) := by
        rw [hresult, if_neg (writeBlocked_none_iff.not.mpr h), hc]
        rfl
      refine ⟨c, hc, enable_of_byte he, (finOf_eq_some_iff.mp hcad).symm, hdelay, hperiod, ?_⟩
      intro stored returned
      refine ⟨fun hkept => ?_, fun hk hne => ?_⟩
      · rw [happlied, storeLabel_of_kept hkept]
        rfl
      · rw [happlied, storeLabel_of_changed hk hne, abandon_eq]
        cases hw : s.ser[m].word <;> simp only [returned, hw] <;> rfl

end Sys2Proof.Machine
end

section
/-!
PROOFS. What writing an entry of the other tables does (R5, R33, R54, R55, R78, R101, R111, R180, R196, R201, R207).
-/

namespace Sys2Proof.Machine

/-! ### The SERVO record -/

theorem servoStored_servoCfg (cfg : ServoCfg) (s : State) :
    (servoStored cfg s).servoCfg = cfg ∧ (servoStored cfg s).elapsed = s.elapsed := by
  unfold servoStored
  dsimp only
  split <;> exact ⟨rfl, rfl⟩

/-- A record that a written SERVO record removes: every one under a new domain, else one it has timed out (R54, R55). -/
def ServoCfg.removes (cfg : ServoCfg) (s : State) (r : SourceRec) : Prop :=
  cfg.domain ≠ s.servoCfg.domain ∨
    cfg.multiple * (2000000000 * 2 ^ (max (-7) (min 7 r.interval) + 7).toNat) < (s.elapsed - r.lastHeard).toNat

section
variable {cfg : ServoCfg} {s : State}

theorem removes_iff {r : SourceRec} :
    cfg.removes s r ↔
      decide (cfg.domain ≠ s.servoCfg.domain) = true ∨ timedOut (servoStored cfg s) r = true := by
  obtain ⟨hcfg, helapsed⟩ := servoStored_servoCfg cfg s
  rw [timedOut_iff, hcfg, helapsed, decide_eq_true_iff]
  rfl

theorem servoWritten_of_empty {i : Fin 8} (h : s.sources[i] = none) : (servoWritten cfg s).sources[i] = none := by
  simp only [servoWritten, prunedSources, mapSources_get, servoStored_sources, h]

theorem servoWritten_of_removed {i : Fin 8} {r : SourceRec} (h : s.sources[i] = some r) (hr : cfg.removes s r) :
    (servoWritten cfg s).sources[i] = none := by
  simp only [servoWritten, prunedSources, mapSources_get, servoStored_sources, h]
  exact if_pos (removes_iff.mp hr)

theorem servoWritten_of_kept {i : Fin 8} {r : SourceRec} (h : s.sources[i] = some r) (hr : ¬ cfg.removes s r) :
    (servoWritten cfg s).sources[i] = some r := by
  simp only [servoWritten, prunedSources, mapSources_get, servoStored_sources, h]
  exact if_neg (removes_iff.not.mp hr)

/-- The selection stands when no selected record is removed. -/
theorem servoWritten_selectedName_of_kept (hone : s.oneSelected)
    (h : ¬ ∃ i : Fin 8, ∃ r ∈ s.sources[i], r.selected = true ∧ cfg.removes s r) :
    (servoWritten cfg s).selectedName = s.selectedName := by
  obtain ⟨-, hunique⟩ := hone
  have hsub := servoWritten_subset cfg s
  refine congrArg (Option.map _) ?_
  cases hs : s.selected with
  | none =>
    rw [selected_none] at hs ⊢
    exact fun ⟨i, a, ha, hsel⟩ => hs ⟨i, a, hsub i a ha, hsel⟩
  | some r =>
    obtain ⟨hsel, i, hi⟩ := selected_some hs
    have hkept := servoWritten_of_kept hi fun hr => h ⟨i, r, hi, hsel, hr⟩
    obtain ⟨x, hx⟩ := Option.isSome_iff_exists.mp (selected_isSome.mpr ⟨i, r, hkept, hsel⟩)
    obtain ⟨hxsel, j, hj⟩ := selected_some hx
    obtain rfl := hunique i j r hi x (hsub j x hj) ⟨hsel, hxsel⟩
    rw [hx, ← hj, hkept]

/-- The selection is gone with the selected record. -/
theorem servoWritten_selectedName_of_lost (hone : s.oneSelected)
    (h : ∃ i : Fin 8, ∃ r ∈ s.sources[i], r.selected = true ∧ cfg.removes s r) :
    (servoWritten cfg s).selectedName ≠ s.selectedName := by
  obtain ⟨-, hunique⟩ := hone
  obtain ⟨i, r, hi, hsel, hr⟩ := h
  have hnone : (servoWritten cfg s).selectedName = none := by
    rw [← not_not (a := _ = none)]
    refine selectedName_ne_none.not.mpr ?_
    rintro ⟨j, a, ha, hasel⟩
    obtain rfl := hunique i j r hi a (servoWritten_subset cfg s j a ha) ⟨hsel, hasel⟩
    cases (servoWritten_of_removed hi hr).symm.trans ha
  rw [hnone]
  exact (selectedName_ne_none.mpr ⟨i, r, hi, hsel⟩).symm

theorem rescheduled_eq (t : State) (x : Schedule) :
    rescheduled t x =
      match x with
      | .stopped => .stopped
      | .timed _ l => .timed (l + BitVec.ofNat 64 (16000000000 * 2 ^ (t.servoCfg.probeCode + 4).toNat)) l
      | .waiting _ l => .waiting (l + BitVec.ofNat 64 (16000000000 * 2 ^ (t.servoCfg.probeCode + 4).toNat)) l := by
  rw [← probeStep_eq]
  cases x <;> rfl

/-- The state that a written SERVO record leaves before selection is rerun. -/
theorem servoWritten_eq (cfg : ServoCfg) (s : State) :
    servoWritten cfg s =
      { s with
        servoCfg := cfg
        sources := (servoWritten cfg s).sources
        servo :=
          { s.servo with
            a := clamp cfg.maxAdjust s.servo.a, integ := clamp (cfg.maxAdjust * 65536) s.servo.integ }
        exch :=
          { s.exch with
            sched :=
              if cfg.probeCode = s.servoCfg.probeCode then s.exch.sched
              else rescheduled { s with servoCfg := cfg } s.exch.sched } } := by
  unfold servoWritten servoStored
  dsimp only
  split <;> rfl

end

theorem servoReselected_of_kept {cfg : ServoCfg} {s : State} (h : (servoWritten cfg s).selectedName = s.selectedName) :
    servoReselected cfg s = servoWritten cfg s := if_pos h

theorem servoReselected_of_lost {cfg : ServoCfg} {s : State} (h : (servoWritten cfg s).selectedName ≠ s.selectedName) :
    servoReselected cfg s = rerunSelection s.selectedName (servoWritten cfg s) := if_neg h

theorem exec_holdoverExpired (s : State) : exec .holdoverExpired s = .next (expireHoldover s) := rfl

/-! ### The other tables -/

section
variable {s : State} {b : List Byte}

theorem writeServo_eq :
    writeEntry .servo 0 b s =
      (decodeServo b).elim (.refused .badValue) fun cfg =>
        .applied (decide (maxAdjustLimit < fieldAt b 7 4)) (applyServo cfg s) := by
  simp only [writeEntry, writeServo]
  cases decodeServo b <;> rfl

theorem writeCapture_eq (n : Fin 4) :
    writeEntry .capture n b s =
      (decodeCapture b).elim (.refused .badValue) fun r =>
        .applied false ({ s with capRec := s.capRec.set n r }.setCap n (s.cap[n].reconfigure s.capRec[n] r)) := by
  simp only [writeEntry, writeCapture, finOf_val]
  cases decodeCapture b <;> rfl

theorem writeNotify_eq (g : Fin 4) :
    writeEntry .notify g b s =
      (decodeNotify b).elim (.refused .badValue) fun c => .applied false { s with notifyCfg := s.notifyCfg.set g c } := by
  simp only [writeEntry, writeNotify, finOf_val]
  cases decodeNotify b <;> rfl

theorem writeClassify_eq (i : Fin 32) :
    writeEntry .classify i b s =
      (decodeClass b).elim (.refused .badValue) fun e => .applied false { s with classify := s.classify.set i e } := by
  simp only [writeEntry, writeClassify, finOf_val]
  cases decodeClass b <;> rfl

theorem writeManager_eq (n : Fin 4) :
    writeEntry .managers n b s =
      .applied false { s with managers := s.managers.set n (BitVec.ofNat 48 (fieldAt b 0 6)) } := by
  simp only [writeEntry, writeManager, finOf_val]
  rfl

end

/-- What a written record changes of a capture line, by the fields that it changes (R180). -/
theorem reconfigure_eq (old r : CapRec) (x : CapLine) :
    x.reconfigure old r =
      { qual := if decide (old.sel ≠ r.sel ∨ old.qual ≠ r.qual) then (if r.sel = .none then .idle else .seeding) else x.qual
        sample := x.sample
        ring := if decide (old.mode ≠ r.mode) then [] else x.ring
        st := if decide (old.mode ≠ r.mode) then .run else x.st
        phase := if decide (old.bound ≠ r.bound ∨ old.window ≠ r.window) then none else x.phase
        inWindow := if decide (old.bound ≠ r.bound ∨ old.window ≠ r.window) then true else x.inWindow } := by
  simp only [CapLine.reconfigure, seedFor, decide_eq_true_eq]

/-- The parts of a SERVO write in their order, each by its condition (R54, R55, R78, R101, R111). -/
theorem applyServo_parts {cfg : ServoCfg} {s : State} (hone : s.oneSelected) :
    let loses : Prop := ∃ i : Fin 8, ∃ r ∈ s.sources[i], r.selected = true ∧ cfg.removes s r
    ∃ w x : State,
      (¬ loses → w = servoWritten cfg s) ∧ (loses → w = rerunSelection s.selectedName (servoWritten cfg s)) ∧
        (cfg.probeCode = s.servoCfg.probeCode → x = w) ∧
        (cfg.probeCode ≠ s.servoCfg.probeCode → exec .probeScheduleExpiry w = .next x) ∧
        (cfg.holdoverLimit = s.servoCfg.holdoverLimit → applyServo cfg s = x) ∧
        (cfg.holdoverLimit ≠ s.servoCfg.holdoverLimit → exec .holdoverExpired x = .next (applyServo cfg s)) := by
  intro loses
  refine ⟨servoReselected cfg s, servoRescheduled cfg s, fun h => ?_, fun h => ?_, fun h => ?_, fun h => ?_, fun h => ?_,
    fun h => ?_⟩
  · exact servoReselected_of_kept (servoWritten_selectedName_of_kept hone h)
  · exact servoReselected_of_lost (servoWritten_selectedName_of_lost hone h)
  · exact if_pos h
  · rw [exec_probeScheduleExpiry, servoRescheduled, if_neg h]
  · rw [applyServo_eq, if_pos h]
  · rw [exec_holdoverExpired, applyServo_eq, if_neg h]

/-- Settles O56: the parts of a SERVO write by what it removes, each other table's write in its check and its effect. -/
theorem writtenEntriesTakeEffect : Obligations.WrittenEntriesTakeEffect := by
  intro s b
  refine ⟨fun h => ?_, fun cfg h hone => ?_, fun n => ⟨fun h => ?_, fun r h => ?_⟩, fun p => ?_, rfl, fun n =>
    ⟨writeManager_eq n, fun h => ?_, fun c h => ?_⟩, fun i => ⟨fun h => ?_, fun e h => ?_⟩⟩
  · rw [writeServo_eq, h]
    rfl
  · intro m interval gone loses
    refine ⟨applyServo cfg s, (servoWritten cfg s).sources, ?_, fun i => ⟨servoWritten_of_empty, fun r hr =>
      ⟨servoWritten_of_removed hr, servoWritten_of_kept hr⟩⟩, ?_⟩
    · rw [writeServo_eq, h]
      rfl
    · intro u moved u1
      have hu : servoWritten cfg s = u1 := by
        rw [servoWritten_eq, rescheduled_eq]
        rfl
      rw [← hu]
      exact applyServo_parts hone
  · rw [writeCapture_eq, h]
    rfl
  · intro old x rung seeded bound
    rw [writeCapture_eq, h, Option.elim_some, reconfigure_eq]
    rfl
  · intro i asym bad
    have hi : portOf i = p := by cases p <;> rfl
    have hwrite : writeEntry .port i b s =
        if 16777215 < fieldAt b 0 4 ∨ 16777215 < fieldAt b 4 4 ∨ (p = .d ∧ asym ≠ 0) then .refused .badValue
        else .applied false
          (s.setPort p { s.port p with ingressLat := fieldAt b 0 4, egressLat := fieldAt b 4 4, asym := asym }) := by
      rw [← hi]
      rfl
    exact ⟨fun h => hwrite.trans (if_pos h), fun h => hwrite.trans (if_neg h)⟩
  · rw [writeNotify_eq, h]
    rfl
  · rw [writeNotify_eq, h]
    rfl
  · rw [writeClassify_eq, h]
    rfl
  · rw [writeClassify_eq, h]
    rfl

end Sys2Proof.Machine
end

section
/-!
PROOFS. COLD_RESET, RESTART and WARM_RESET (R117, R198 and the reset rules of the blocks).
-/

namespace Sys2Proof.Machine

/-! ### COLD_RESET -/

section
variable (s : State)

theorem coldReset_port (p : Port) : (coldReset s).port p = PortState.reset := by
  cases p <;> rfl

theorem coldReset_classify (i : Fin 32) : (coldReset s).classify[i] = ClassEntry.empty := Vector.getElem_replicate _

theorem coldReset_banks (k : Fin 4) : (coldReset s).banks[k] = Bank.reset := Vector.getElem_replicate _

theorem coldReset_cad (n : Fin 8) : (coldReset s).cad[n] = CadRun.reset := Vector.getElem_replicate _

theorem coldReset_ser (m : Fin 2) : (coldReset s).ser[m] = Serializer.reset := Vector.getElem_replicate _

theorem coldReset_pins (i : Fin 12) : (coldReset s).pins[i] = false := Vector.getElem_replicate _

theorem coldReset_capRec (n : Fin 4) : (coldReset s).capRec[n] = CapRec.reset := Vector.getElem_replicate _

theorem coldReset_cap (n : Fin 4) : (coldReset s).cap[n] = CapLine.reset := Vector.getElem_replicate _

theorem coldReset_managers (n : Fin 4) : (coldReset s).managers[n] = 0 := Vector.getElem_replicate _

theorem coldReset_notifyCfg (g : Fin 4) : (coldReset s).notifyCfg[g] = NotifyCfg.reset := Vector.getElem_replicate _

theorem coldReset_groups (g : Fin 4) : (coldReset s).groups[g] = Group.reset := Vector.getElem_replicate _

end

theorem bankReset_cad (n : Fin 8) : Bank.reset.cad[n] = CadRec.reset := Vector.getElem_replicate _

theorem bankReset_lines (i : Fin 12) : Bank.reset.lines[i] = Route.reset := Vector.getElem_replicate _

theorem bankReset_labels (m : Fin 2) : Bank.reset.labels[m] = LabelCfg.reset := Vector.getElem_replicate _

/-! ### RESTART -/

theorem restartRequest_carriesOut {s : State} {r : Request} {rest : List Request} (h : s.carriesOut .restart r rest) :
    restartRequest s = respondRestart r { s with requests := rest } := by
  obtain ⟨hi, hq, hc, hsize, hlen, hperm⟩ := h
  have hpre : precheck { s with requests := rest } .restart r = none :=
    (if_neg fun hshort => hshort.elim (Nat.not_lt.mpr hlen) (Nat.not_lt.mpr hsize)).trans (if_pos hperm)
  unfold restartRequest
  split
  next _ _ _ h =>
    obtain ⟨rfl, rfl⟩ := List.cons.inj (h.symm.trans hq)
    refine (if_pos hc).trans ?_
    simp only [hpre]
  next h => exact absurd hq (h r rest hi)

section
variable {r : Request} {s : State}

theorem respondRestart_eq (r : Request) (s : State) :
    respondRestart r s =
      arrive r.port .ordinary { bytes := responseFrame s r .ok [], origin := .response true }
        { s with restart := if canJoin r.port .ordinary s then .waiting else .due } := rfl

theorem port_restart (x : RestartState) (p : Port) : State.port { s with restart := x } p = s.port p := by
  cases p <;> rfl

theorem canJoin_ordinary_iff {p : Port} :
    canJoin p .ordinary s = true ↔ (s.port p).link = .up ∧ (s.port p).ordinaryQ.length < 32 := by
  rw [canJoin, Bool.and_eq_true, decide_eq_true_iff, decide_eq_true_iff]
  rfl

theorem respondRestart_of_room (hl : (s.port r.port).link = .up) (hq : (s.port r.port).ordinaryQ.length < 32) :
    respondRestart r s =
      State.setPort { s with restart := .waiting } r.port
        { s.port r.port with
          ordinaryQ := (s.port r.port).ordinaryQ ++
            [{ bytes := responseFrame s r .ok [], origin := .response true }] } := by
  rw [respondRestart_eq, if_pos (canJoin_ordinary_iff.mpr ⟨hl, hq⟩), arrive_ordinary_of_room, port_restart]
  · rw [port_restart]
    exact hl
  · rw [port_restart]
    exact hq

theorem respondRestart_of_down (hl : (s.port r.port).link = .down) : respondRestart r s = { s with restart := .due } := by
  have hno : ¬ canJoin r.port .ordinary s = true := fun h => by
    cases hl.symm.trans (canJoin_ordinary_iff.mp h).1
  rw [respondRestart_eq, if_neg hno, arrive_of_down]
  rw [port_restart]
  exact hl

theorem respondRestart_of_full (hl : (s.port r.port).link = .up) (hq : 32 ≤ (s.port r.port).ordinaryQ.length) :
    respondRestart r s = raise (.queueDrop r.port) { s with restart := .due } := by
  have hno : ¬ canJoin r.port .ordinary s = true := fun h => Nat.not_lt.mpr hq (canJoin_ordinary_iff.mp h).2
  rw [respondRestart_eq, if_neg hno, arrive_ordinary_of_full]
  · rw [port_restart]
    exact hl
  · rw [port_restart]
    exact hq

end

/-! ### WARM_RESET -/

theorem eq_otherPort_of_ne {p q : Port} (h : q ≠ p) : p = otherPort q := by
  cases p <;> cases q <;> simp_all [otherPort]

/-- A departure handed over answers no frame in transmission but a marked one of its own port that is still being sent
(R11). -/
theorem handOver_tx_of {d : Departure} {p : Port} (h : d.port ≠ p ∨ d.sending = false ∨ d.entry.isMarked = false)
    (s : State) : ((handOver d s).port p).tx = (s.port p).tx := by
  cases ho : d.entry.origin with
  | forwarded ing mark =>
    cases mark with
    | none => rw [handOver, ho]
    | some mark =>
      by_cases hp : d.port = p
      · have hsending : d.sending = false := by
          refine (h.resolve_left (not_not.mpr hp)).resolve_right fun hm => ?_
          rw [EgressEntry.isMarked, ho] at hm
          cases hm
        subst hp
        rw [handOver_marked_tx ho, hsending]
        rfl
      · rw [eq_otherPort_of_ne hp]
        exact handOver_marked_other ho s
  | probe seq => rw [handOver, ho, probeDeparted_port]
  | _ => rw [handOver, ho]

theorem handOverThose_tx_of {now : Departure → Bool} {s : State} {p : Port}
    (h : ∀ d ∈ s.departing, now d = true → d.port ≠ p ∨ d.sending = false ∨ d.entry.isMarked = false) :
    ((handOverThose now s).port p).tx = (s.port p).tx := by
  have hfold : ∀ (l : List Departure) (t : State),
      (∀ d ∈ l, d.port ≠ p ∨ d.sending = false ∨ d.entry.isMarked = false) →
      ((l.foldl (fun t d => handOver d t) t).port p).tx = (t.port p).tx := by
    intro l
    induction l with
    | nil => exact fun _ _ => rfl
    | cons d l ih =>
      exact fun t hl => (ih _ fun x hx => hl x (List.mem_cons_of_mem _ hx)).trans (handOver_tx_of (hl d List.mem_cons_self) t)
  have hstart : State.port { s with departing := s.departing.filter fun d => !now d } p = s.port p := by
    cases p <;> rfl
  exact (hfold _ _ fun d hd => h d (List.mem_filter.mp hd).1 (List.mem_filter.mp hd).2).trans (congrArg _ hstart)

theorem handOverThose_departing (now : Departure → Bool) (s : State) :
    (handOverThose now s).departing = s.departing.filter fun d => !now d :=
  State.sameBut.foldl (fun t d => handOver_sameBut d t) _ _ .departing (by decide)

/-- The state that a warm reset leaves, block by block, from the state with the departures handed over. -/
theorem warmReset_eq_of_sameBut {s u : State} (h : s.sameBut [.residence, .exch, .departing] u) :
    warmReset u =
      { s with
        portN := u.portN.warmReset
        portD := u.portD.warmReset
        departing := u.departing
        residence := []
        sources := Vector.replicate 8 none
        exch := Exchange.reset
        servo := s.servo.warmReset
        switch := none
        cap := mapCap (fun n x => x.warmReset s.capRec[n]) s.cap
        requests := []
        restart := .idle
        groups := Vector.replicate 4 Group.reset
        notifySeq := 0 } := by
  have hcap : u.cap = s.cap := h .cap (by decide)
  have hcapRec : u.capRec = s.capRec := h .capRec (by decide)
  have hservo : u.servo = s.servo := h .servo (by decide)
  simp only [warmReset, hcap, hcapRec, hservo, State.mk.injEq, and_true, true_and]
  exact ⟨h .pending (by decide), h .station (by decide), h .classify (by decide), h .copies (by decide),
    h .time (by decide), h .elapsed (by decide), h .elapsedRem (by decide), h .prevTime (by decide),
    h .prevTime2 (by decide), h .steps (by decide), h .servoCfg (by decide), h .clock (by decide), h .banks (by decide),
    h .active (by decide), h .cad (by decide), h .ser (by decide), h .pins (by decide), h .view (by decide),
    h .managers (by decide), h .civil (by decide), h .notifyCfg (by decide)⟩

theorem warmReset_cap (s : State) :
    (warmReset (departuresBeforeReset s)).cap = mapCap (fun n x => x.warmReset s.capRec[n]) s.cap :=
  congrArg State.cap (warmReset_eq_of_sameBut (handOverThose_sameBut (fun d => !d.needsOwnStamp) s))

/-- A warm reset keeps of a port what R17 does not name, and the answers of the departures handed over before it. -/
theorem warmReset_port (s : State) (p : Port) :
    (warmReset (departuresBeforeReset s)).port p =
      { s.port p with
        timingQ := [], ordinaryQ := [], tx := ((handOverThose (fun d => !d.needsOwnStamp) s).port p).tx } := by
  obtain ⟨tx, oq, hsent⟩ := handOverThose_sentBut (fun d => !d.needsOwnStamp) s p
  have hport : (warmReset (departuresBeforeReset s)).port p =
      ((handOverThose (fun d => !d.needsOwnStamp) s).port p).warmReset := by cases p <;> rfl
  rw [hport, hsent]
  rfl

section
variable {d : Departure} {ing egr : Stamp} {mark : CorrMark} {s : State}

theorem needsOwnStamp_of_marked (ho : d.entry.origin = .forwarded ing (some mark)) :
    d.needsOwnStamp = true ↔
      38 ≤ (readHdr d.entry.bytes mark.hdrPos).len ∧
        (((readHdr d.entry.bytes mark.hdrPos).kind = 2 ∧ (readHdr d.entry.bytes mark.hdrPos).twoStep = false) ∨
          (readHdr d.entry.bytes mark.hdrPos).kind = 4) := by
  simp only [Departure.needsOwnStamp, ho, kindMark, kindProbe, Bool.and_eq_true, Bool.or_eq_true, decide_eq_true_iff,
    Bool.not_eq_true']
  exact and_congr_right' (or_congr (and_congr_left' decide_eq_true_iff) decide_eq_true_iff)

/-- A frame that is not corrected by its own stamp and finds no record leaves with its bytes unchanged (R37, R43). -/
theorem consult_unchanged (ho : d.entry.origin = .forwarded ing (some mark)) (hown : d.needsOwnStamp = false)
    (h : (readHdr d.entry.bytes mark.hdrPos).len < 38 ∨ (readHdr d.entry.bytes mark.hdrPos).kind ≠ 3 ∨
      (s.residence.find? fun x =>
        x.sameKey (residenceRecord (readHdr d.entry.bytes mark.hdrPos) d.port ing egr) && x.dir == d.port) = none) :
    (consult d.port d.entry.bytes ing egr mark s).1 = d.entry.bytes := by
  by_cases hlen : (readHdr d.entry.bytes mark.hdrPos).len < 38
  · rw [consult_untouched (.inl hlen)]
  · have hlen38 := Nat.not_lt.mp hlen
    have hnot := (needsOwnStamp_of_marked ho).not.mp (Bool.eq_false_iff.mp hown)
    by_cases h2 : (readHdr d.entry.bytes mark.hdrPos).kind = 2
    · have htwo : (readHdr d.entry.bytes mark.hdrPos).twoStep = true := by
        by_contra hf
        exact hnot ⟨hlen38, .inl ⟨h2, Bool.eq_false_iff.mpr hf⟩⟩
      rw [consult_twoStepMark hlen38 h2 htwo]
    · by_cases h3 : (readHdr d.entry.bytes mark.hdrPos).kind = 3
      · have hnone := (h.resolve_left hlen).resolve_left (not_not.mpr h3)
        rw [consult_follow_missed hlen38 h3 hnone]
      · have h4 : (readHdr d.entry.bytes mark.hdrPos).kind ≠ 4 := fun h4 => hnot ⟨hlen38, .inr h4⟩
        rw [consult_untouched (.inr ⟨h2, h3, h4⟩)]

end

/-- One departure waits: it is handed over before the reset, unless it is corrected by its own stamp. -/
theorem handOverThose_single {d : Departure} {s : State} (hd : s.departing = [d]) (hown : d.needsOwnStamp = false) :
    handOverThose (fun d => !d.needsOwnStamp) s = handOver d { s with departing := [] } := by
  simp only [handOverThose, hd, List.filter_cons, hown, Bool.not_false, Bool.not_true, if_true, Bool.false_eq_true, if_false,
    List.filter_nil, List.foldl_cons, List.foldl_nil]

/-- The frame that waits for the answer leaves with the bytes that the corrector gives. -/
theorem handOverThose_answered {d : Departure} {ing : Stamp} {mark : CorrMark} {s : State} {out : List Byte}
    (hd : s.departing = [d]) (hown : d.needsOwnStamp = false) (hsending : d.sending = true)
    (ho : d.entry.origin = .forwarded ing (some mark))
    (hout : (consult d.port d.entry.bytes ing (egressStamp { s with departing := [] } d.latency) mark
      { s with departing := [] }).1 = out) :
    ((handOverThose (fun d => !d.needsOwnStamp) s).port d.port).tx =
      (s.port d.port).tx.map fun f => { f with wire := some (out ++ fcsOf out) } := by
  have hport : State.port { s with departing := [] } d.port = s.port d.port := by cases d.port <;> rfl
  rw [handOverThose_single hd hown, handOver_marked_tx ho, hsending, if_pos rfl, hout, hport]
  rfl

/-- Settles O60: the reset state field by field, RESTART by the room at its port, WARM_RESET block by block. -/
theorem resetsAndRestart : Obligations.ResetsAndRestart := by
  refine ⟨fun s => ⟨coldReset s, rfl, rfl, rfl, rfl, rfl, rfl, rfl, rfl, rfl, rfl, rfl, rfl, rfl, rfl, rfl, rfl, rfl, rfl,
    rfl, rfl, rfl, rfl, rfl, rfl, rfl, fun p => ?_, coldReset_classify s, fun k => ?_, coldReset_cad s, fun m => ?_,
    coldReset_pins s, fun n => ?_, fun g => ⟨coldReset_managers s g, coldReset_notifyCfg s g, coldReset_groups s g⟩⟩,
    fun s r rest hc => ?_, fun s => ⟨fun h => ?_, fun h => ?_⟩⟩
  · rw [coldReset_port]
    exact ⟨rfl, rfl, rfl, rfl, rfl, rfl, rfl, rfl, rfl⟩
  · rw [coldReset_banks]
    exact ⟨bankReset_cad, bankReset_lines, bankReset_labels⟩
  · rw [coldReset_ser]
    exact ⟨rfl, rfl⟩
  · rw [coldReset_capRec, coldReset_cap]
    exact ⟨rfl, rfl, rfl, rfl, rfl⟩
  · intro s1 x out
    have hx : s1.port r.port = x := by cases hp : r.port <;> simp only [x, hp] <;> rfl
    have hanswer : ∀ {t : State}, respondRestart r s1 = t → exec .restart s = .next t := fun h =>
      congrArg Host.Outcome.next ((restartRequest_carriesOut hc).trans h)
    refine ⟨fun hl hq => hanswer ?_, fun hl => hanswer (respondRestart_of_down (hx ▸ hl)), fun hl hq =>
      hanswer (respondRestart_of_full (hx ▸ hl) (hx ▸ hq))⟩
    rw [respondRestart_of_room (hx ▸ hl) (hx ▸ hq), hx]
  · exact congrArg Host.Outcome.next (if_neg h)
  · refine ⟨warmReset (departuresBeforeReset s), congrArg Host.Outcome.next (if_pos h), fun p => ⟨?_, fun hd => ?_, ?_⟩,
      fun d ing mark hd hown hsending ho => ?_, ?_, fun n => ?_⟩
    · rw [warmReset_port]
    · rw [warmReset_port]
      refine handOverThose_tx_of fun d hmem hnow => ?_
      obtain hp | hsend | hmarked | hown := hd d hmem
      · exact .inl hp
      · exact .inr (.inl hsend)
      · exact .inr (.inr hmarked)
      · rw [hown] at hnow
        cases hnow
    · rw [warmReset_port]
    · intro bytes h names sends
      have hsends : ∀ {out : List Byte}, (consult d.port d.entry.bytes ing
          (egressStamp { s with departing := [] } d.latency) mark { s with departing := [] }).1 = out → sends out := by
        intro out hout
        change ((warmReset (departuresBeforeReset s)).port d.port).tx = _
        rw [warmReset_port]
        exact handOverThose_answered hd hown hsending ho hout
      have hnames : ∀ y : ResRec, (y.sameKey (residenceRecord h d.port ing
          (egressStamp { s with departing := [] } d.latency)) && y.dir == d.port) = true ↔ names y := fun y => by
        rw [Bool.and_eq_true, sameKey_iff, beq_iff_eq, and_assoc, and_assoc, and_assoc]
        rfl
      refine ⟨fun hno => hsends (consult_unchanged ho hown ?_), fun a x b hres hx ha hlen hk => hsends ?_⟩
      · refine hno.imp_right fun hk => hk.imp_right fun hnone => List.find?_eq_none.mpr fun y hy => ?_
        exact (hnames y).not.mpr (hnone y hy)
      · have hfind : (s.residence.find? fun y => y.sameKey (residenceRecord h d.port ing
            (egressStamp { s with departing := [] } d.latency)) && y.dir == d.port) = some x :=
          List.find?_eq_some_iff_append.mpr ⟨(hnames x).mpr hx, a, b, hres, fun y hy => by
            rw [Bool.not_eq_true', ← Bool.not_eq_true]
            exact (hnames y).not.mpr (ha y hy)⟩
        exact congrArg Prod.fst (consult_follow_found (s := { s with departing := [] }) hlen hk hfind)
    · have hreset := warmReset_eq_of_sameBut (handOverThose_sameBut (fun d => !d.needsOwnStamp) s)
      have hwait : (s.departing.filter fun d => !!d.needsOwnStamp) = s.departing.filter Departure.needsOwnStamp := by
        simp only [Bool.not_not]
      rw [handOverThose_departing, hwait] at hreset
      rw [warmReset_cap]
      exact hreset
    · rw [warmReset_cap, mapCap_get]
      rfl

end Sys2Proof.Machine
end

section
/-!
PROOFS. What moves the pins and the outputs of the serializers outside a tick: nothing but the settling of a tick whose
last event is taken (R159, R168).
-/

namespace Sys2Proof.Machine

/-! ### Outputs that stand -/

/-- The pins and the outputs of the serializers stand. -/
structure State.outsKept (s t : State) : Prop where
  pins : t.pins = s.pins
  outs : ∀ m : Fin 2, t.ser[m].data = s.ser[m].data ∧ t.ser[m].clk = s.ser[m].clk

theorem State.outsKept.refl (s : State) : s.outsKept s := ⟨rfl, fun _ => ⟨rfl, rfl⟩⟩

theorem State.outsKept.trans {s t u : State} (h : s.outsKept t) (k : t.outsKept u) : s.outsKept u :=
  ⟨k.pins.trans h.pins, fun m => ⟨(k.outs m).1.trans (h.outs m).1, (k.outs m).2.trans (h.outs m).2⟩⟩

theorem outsKept_of_ser {s t : State} (hpins : t.pins = s.pins) (hser : t.ser = s.ser) : s.outsKept t :=
  ⟨hpins, fun _ => by rw [hser]; exact ⟨rfl, rfl⟩⟩

theorem outsKept_of_sameBut {F : List Field} {s t : State} (h : s.sameBut F t) (hF : ∀ f ∈ [Field.pins, .ser], f ∉ F) :
    s.outsKept t :=
  outsKept_of_ser (h .pins (hF _ (by decide))) (h .ser (hF _ (by decide)))

theorem abandon_outs (c : LabelCfg) (x : Serializer) : (x.abandon c).data = x.data ∧ (x.abandon c).clk = x.clk := by
  rw [abandon_eq]
  exact ⟨rfl, rfl⟩

theorem switched_outs (out inc : Bank) (m : Fin 2) (x : Serializer) :
    (x.switched out inc m).data = x.data ∧ (x.switched out inc m).clk = x.clk := by
  unfold Serializer.switched
  split_ifs
  · exact abandon_outs _ _
  · exact abandon_outs _ _
  · exact ⟨rfl, rfl⟩

theorem told_outs (c : LabelCfg) (n : Fin 8) (k : Nat) (bits : BitVec 96) (x : Serializer) :
    (x.told c n k bits).data = x.data ∧ (x.told c n k bits).clk = x.clk := by
  unfold Serializer.told
  split_ifs <;> exact ⟨rfl, rfl⟩

theorem makeSwitch_outs (target : Fin 4) (at_ before : Nat) (s : State) : s.outsKept (makeSwitch target at_ before s) where
  pins := (makeSwitch_evolves target at_ before s).same .pins (by decide)
  outs m := by
    rw [makeSwitch_ser]
    exact switched_outs _ _ _ _

theorem tellSwitch_outs (n : Fin 8) (t before : Nat) (s : State) : s.outsKept (tellSwitch n t before s) := by
  obtain h | ⟨q, -, -, h⟩ := tellSwitch_cases n t before s
  · rw [h]
    exact .refl s
  · rw [h]
    exact makeSwitch_outs _ _ _ _

theorem produceEdge_outs (n : Fin 8) (k e : Nat) (next : CadState) (s : State) : s.outsKept (produceEdge n k e next s) where
  pins := (produceEdge_evolves n k e next s).same .pins (by decide)
  outs m := by
    rw [(produceEdge_told n k e next s m).1]
    exact told_outs _ _ _ _ _

/-! ### A tick that settles -/

/-- The tick settles: nothing is held back any longer, no event is left, and what `v` holds is shown. -/
structure State.showing (v : TickView) (t : State) : Prop where
  view : t.view = none
  quiet : t.eventReached = false
  pins : ∀ i : Fin 12, t.pins[i] = (v.lines[i]).level v
  outs : ∀ m : Fin 2, (t.ser[m].data, t.ser[m].clk) = v.ser[m]

/-- The outputs stand, or the tick settles. -/
def State.settles (s t : State) : Prop :=
  (t.view = s.view ∧ s.outsKept t) ∨ ∃ v, s.view = some v ∧ State.showing v t

/-- Nothing of what `eventReached` and the outputs go by changes. -/
def State.tickKept (s t : State) : Prop := t.view = s.view ∧ s.outsKept t ∧ t.eventReached = s.eventReached

theorem settleTick_eventReached (s : State) : (settleTick s).eventReached = s.eventReached := by
  obtain ⟨ser, pins, view, h⟩ := settleTick_frame s
  rw [h]
  exact eventReached_congr rfl rfl (fun _ => rfl) rfl rfl

theorem settleTick_showing {s : State} {v : TickView} (hv : s.view = some v) (he : s.eventReached = false) :
    State.showing v (settleTick s) := by
  have hshow : settleTick s = showOutputs v s := by
    simp only [settleTick, hv, he, Bool.false_eq_true, if_false]
  refine ⟨?_, (settleTick_eventReached s).trans he, fun i => ?_, fun m => ?_⟩
  · rw [hshow]
    rfl
  · rw [hshow]
    exact showOutputs_pins v s i
  · rw [hshow]
    exact showOutputs_outputs v s m

/-- Settling after a change that moves no output. -/
theorem settles_of_settleTick {s u : State} (hview : u.view = s.view) (hk : s.outsKept u) : s.settles (settleTick u) := by
  obtain ⟨hv, h⟩ | ⟨_, _, _, h⟩ | ⟨v, hv, he, -⟩ := settleTick_cases u
  · rw [h]
    exact .inl ⟨hview, hk⟩
  · rw [h]
    exact .inl ⟨hview, hk⟩
  · exact .inr ⟨v, hview.symm.trans hv, settleTick_showing hv he⟩

theorem State.settles.after {s t u : State} (h : s.settles t) (k : t.tickKept u) : s.settles u := by
  obtain ⟨hview, hk, he⟩ := k
  obtain ⟨hv, hs⟩ | ⟨v, hv, hshow⟩ := h
  · exact .inl ⟨hview.trans hv, hs.trans hk⟩
  · refine .inr ⟨v, hv, hview.trans hshow.view, he.trans hshow.quiet, fun i => ?_, fun m => ?_⟩
    · rw [hk.pins]
      exact hshow.pins i
    · rw [(hk.outs m).1, (hk.outs m).2]
      exact hshow.outs m

theorem State.settles.before {s t u : State} (hview : t.view = s.view) (hk : s.outsKept t) (h : t.settles u) : s.settles u := by
  obtain ⟨hv, hs⟩ | ⟨v, hv, hshow⟩ := h
  · exact .inl ⟨hv.trans hview, hk.trans hs⟩
  · exact .inr ⟨v, hview.symm.trans hv, hshow⟩

theorem tickKept_of_sameBut {F : List Field} {s t : State} (h : s.sameBut F t)
    (hF : ∀ f ∈ Field.servo :: .pins :: .ser :: viewFields, f ∉ F) : s.tickKept t := by
  have hservo : t.servo = s.servo := h .servo (hF _ (by decide))
  refine ⟨h .view (hF _ (by decide)), outsKept_of_ser (h .pins (hF _ (by decide))) (h .ser (hF _ (by decide))), ?_⟩
  exact eventReached_congr (h .cad (hF _ (by decide))) (h .time (hF _ (by decide)))
    (fun n => by rw [cadRec_congr (h .banks (hF _ (by decide))) (h .active (hF _ (by decide)))]) (by rw [hservo])
    (h .switch (hF _ (by decide)))

theorem settles_of_sameBut {F : List Field} {s t : State} (h : s.sameBut F t)
    (hF : ∀ f ∈ [Field.view, .pins, .ser], f ∉ F) : s.settles t :=
  .inl ⟨h .view (hF _ (by decide)), outsKept_of_sameBut h fun f hf => hF f (List.mem_cons_of_mem _ hf)⟩

theorem settles_refl (s : State) : s.settles s := .inl ⟨rfl, .refl s⟩

/-! ### The commands that are no events -/

theorem respond_tickKept (r : Request) (a : Reply) : a.after.tickKept (respond r a) :=
  tickKept_of_sameBut (respond_evolves r a).same (by decide)

theorem serve_settles {c : Command} {core : List Byte → State → Reply} (hcore : ∀ (b : List Byte) (u : State), u.settles (core b u).after)
    (s : State) : s.settles (serve c core s) := by
  have hrequests (rest : List Request) : s.outsKept { s with requests := rest } := outsKept_of_ser rfl rfl
  obtain h | ⟨r, rest, -, -, -, ⟨st, -, h⟩ | ⟨-, h⟩⟩ := serve_cases c core s
  · rw [h]
    exact settles_refl s
  · rw [h]
    exact State.settles.after (t := { s with requests := rest }) (.inl ⟨rfl, hrequests rest⟩)
      (respond_tickKept r { st := st, body := [], after := { s with requests := rest } })
  · rw [h]
    exact (State.settles.before (s := s) (t := { s with requests := rest }) rfl (hrequests rest) (hcore r.body _)).after
      (respond_tickKept r _)

theorem switchBankCore_settles (b : List Byte) (u : State) : u.settles (switchBankCore b u).after := by
  obtain h | ⟨q, -, -, -, -, h⟩ | h := switchBankCore_after b u
  · rw [h]
    exact settles_refl u
  · rw [h]
    exact .inl ⟨rfl, outsKept_of_ser rfl rfl⟩
  · rw [h]
    exact settles_of_settleTick rfl (outsKept_of_ser rfl rfl)

theorem armCore_settles (b : List Byte) (u : State) : u.settles (armCore b u).after := by
  obtain h | ⟨n, k, -, -, -, h⟩ := armCore_after b u
  · rw [h]
    exact settles_refl u
  · rw [h]
    exact settles_of_settleTick rfl (outsKept_of_ser rfl rfl)

theorem disarmCore_settles (b : List Byte) (u : State) : u.settles (disarmCore b u).after := by
  obtain h | ⟨n, -, h⟩ := disarmCore_after b u
  · rw [h]
    exact settles_refl u
  · rw [h]
    exact settles_of_settleTick rfl (outsKept_of_ser rfl rfl)

theorem intakeNext_settles (s : State) : s.settles (intakeNext s) := by
  obtain ⟨u, hu, ⟨h, -⟩ | ⟨h, -⟩⟩ := intakeNext_mayStart s
  · rw [h]
    exact settles_of_sameBut hu.same (by decide)
  · rw [h]
    have hstart : s.sameBut (.cad :: quietFields) (startWaiting u) :=
      (hu.same.mono (by decide)).trans ((startWaiting_evolves u).same.mono (by decide))
    exact settles_of_settleTick (hstart .view (by decide)) (outsKept_of_sameBut hstart (by decide))

theorem warmResetWhenDue_settles (s : State) : s.settles (warmResetWhenDue s) := by
  unfold warmResetWhenDue
  split
  · have hreset : s.sameBut [.departing, .residence, .sources, .exch, .servo, .switch, .cap, .requests, .restart]
        (warmReset (departuresBeforeReset s)) :=
      ((handOverThose_sameBut _ s).mono (by decide)).trans ((warmReset_sameBut _).mono (by decide))
    exact settles_of_settleTick (hreset .view (by decide)) (outsKept_of_sameBut hreset (by decide))
  · exact settles_refl s

/-- A command that is no event, and neither a tick nor a cold reset, moves no output, or settles the tick; WRITE_TABLE is
treated below. -/
theorem after_settles {c : Instr} {s : State} (hact : actsInTick c = false ∨ c = .switchBank) (htick : ∀ inp, c ≠ .tick inp)
    (hstep : ∀ inp, c ≠ .stepTick inp) (hloss : ∀ n inp, c ≠ .clockLoss n inp) (hcold : c ≠ .coldReset)
    (hwrite : c ≠ .writeTable) : s.settles (c.after s) := by
  cases c with
  | coldReset => exact (hcold rfl).elim
  | tick inp => exact (htick inp rfl).elim
  | stepTick inp => exact (hstep inp rfl).elim
  | clockLoss n inp => exact (hloss n inp rfl).elim
  | writeTable => exact (hwrite rfl).elim
  | cadenceEdge n => exact absurd hact (by simp [actsInTick])
  | pulseEnd n => exact absurd hact (by simp [actsInTick])
  | oneshotFire n => exact absurd hact (by simp [actsInTick])
  | atTimeReached => exact absurd hact (by simp [actsInTick])
  | labelWordComplete m => exact absurd hact (by simp [actsInTick])
  | warmReset => exact warmResetWhenDue_settles s
  | timingCopyIntake => exact intakeNext_settles s
  | switchBank => exact serve_settles switchBankCore_settles s
  | armOneshot => exact serve_settles armCore_settles s
  | disarmOneshot => exact serve_settles disarmCore_settles s
  | _ => exact settles_of_sameBut (after_sameBut _ s) (by simp [Instr.changes])

/-! ### Events -/

/-- What an event makes of the outputs: they stand while an event is left, and with nothing held back. -/
theorem endEvent_outs {s u : State} (hview : u.view = s.view) (hk : s.outsKept u) :
    (s.view = none → (endEvent s u).view = none ∧ s.outsKept (endEvent s u)) ∧
      ((endEvent s u).view ≠ none → s.outsKept (endEvent s u)) := by
  have hstart : s.outsKept { u with view := u.view.map (TickView.follow s u) } := ⟨hk.pins, hk.outs⟩
  refine ⟨fun hv => ?_, fun hne => ?_⟩
  · have hnone : ({ u with view := u.view.map (TickView.follow s u) } : State).view = none := by
      rw [hview, hv]
      rfl
    rw [endEvent, settleTick_of_none _ hnone]
    exact ⟨hnone, hstart⟩
  · obtain ⟨-, h⟩ | ⟨_, -, -, h⟩ | ⟨_, -, -, h⟩ := settleTick_cases { u with view := u.view.map (TickView.follow s u) }
    · rw [endEvent, h]
      exact hstart
    · rw [endEvent, h]
      exact hstart
    · rw [endEvent, h] at hne
      exact (hne rfl).elim

theorem setView_eventReached (s : State) (x : Option TickView) : ({ s with view := x } : State).eventReached = s.eventReached :=
  eventReached_congr rfl rfl (fun _ => rfl) rfl rfl

theorem endEvent_eventReached (s u : State) : (endEvent s u).eventReached = u.eventReached :=
  (settleTick_eventReached _).trans (setView_eventReached u _)

/-- What is held back follows the event, and is shown with the last one. -/
theorem endEvent_of_held {s u : State} {v : TickView} (hview : u.view = s.view) (hk : s.outsKept u) (hv : s.view = some v) :
    ((endEvent s u).view = some (v.follow s u) ∧ s.outsKept (endEvent s u)) ∨
      State.showing (v.follow s u) (endEvent s u) := by
  have hmap : ({ u with view := u.view.map (TickView.follow s u) } : State).view = some (v.follow s u) := by
    rw [hview, hv]
    rfl
  obtain ⟨h, -⟩ | ⟨_, -, -, hend⟩ | ⟨_, -, he, -⟩ := settleTick_cases { u with view := u.view.map (TickView.follow s u) }
  · cases h.symm.trans hmap
  · rw [endEvent, hend]
    exact .inl ⟨hmap, ⟨hk.pins, hk.outs⟩⟩
  · exact .inr (settleTick_showing hmap he)

/-- An event ends as `endEvent`, from a state with the outputs as they were, or changes nothing that is shown. -/
def State.endsEvent (s t : State) : Prop :=
  (t.view = s.view ∧ s.outsKept t) ∨ ∃ u, u.view = s.view ∧ s.outsKept u ∧ t = endEvent s u

theorem endsEvent_refl (s : State) : s.endsEvent s := .inl ⟨rfl, .refl s⟩

theorem tellSwitch_view (n : Fin 8) (t before : Nat) (s : State) : (tellSwitch n t before s).view = s.view :=
  (tellSwitch_evolves n t before s).same .view (by decide)

theorem cadenceEdge_endsEvent (n : Fin 8) (s : State) : s.endsEvent (cadenceEdge n s) := by
  unfold cadenceEdge
  dsimp only
  split
  next k t _ =>
    split
    next =>
      exact .inr ⟨_, (tellSwitch_view _ _ _ _).trans ((produceEdge_evolves _ _ _ _ s).same .view (by decide)),
        (produceEdge_outs _ _ _ _ s).trans (tellSwitch_outs _ _ _ _), rfl⟩
    next => exact endsEvent_refl s
  next => exact endsEvent_refl s

theorem pulseEnd_endsEvent (n : Fin 8) (s : State) : s.endsEvent (pulseEnd n s) := by
  unfold pulseEnd
  split
  next =>
    split
    next =>
      refine .inr ⟨_, ?_, ?_, rfl⟩
      · rfl
      · exact outsKept_of_ser rfl rfl
    next => exact endsEvent_refl s
  next => exact endsEvent_refl s

theorem oneshotFire_endsEvent (n : Fin 8) (s : State) : s.endsEvent (oneshotFire n s) := by
  have hmissed (x : CadRun) : s.outsKept (raise .oneshotMissed (s.setCad n x)) :=
    outsKept_of_ser (raise_pins _ _) (raise_ser _ _)
  have hfired (k t : Nat) : s.outsKept (raise .oneshotDone (produceEdge n k t .done s)) :=
    (produceEdge_outs _ _ _ _ s).trans (outsKept_of_ser (raise_pins _ _) (raise_ser _ _))
  unfold oneshotFire
  dsimp only
  split
  next k t _ =>
    split
    next => exact endsEvent_refl s
    next =>
      split
      next =>
        refine .inr ⟨_, ?_, ?_, rfl⟩
        · exact (tellSwitch_view _ _ _ _).trans (raise_view _ _)
        · exact (hmissed _).trans (tellSwitch_outs _ _ _ _)
      next =>
        split
        next => exact endsEvent_refl s
        next =>
          exact .inr ⟨_, (tellSwitch_view _ _ _ _).trans
            ((raise_view _ _).trans ((produceEdge_evolves _ _ _ _ s).same .view (by decide))),
            (hfired k t).trans (tellSwitch_outs _ _ _ _), rfl⟩
  next => exact endsEvent_refl s

theorem atTimeReached_endsEvent (s : State) : s.endsEvent (atTimeReached s) := by
  obtain h | ⟨q, at_, -, h⟩ := atTimeReached_cases s
  · rw [h]
    exact endsEvent_refl s
  · exact .inr ⟨_, (makeSwitch_evolves _ _ _ s).same .view (by decide), makeSwitch_outs _ _ _ s, h⟩

/-- A serializer replaced by one with the same outputs. -/
theorem setSer_outs {s : State} {m : Fin 2} {x : Serializer} (i : Fin 2) (hdata : x.data = s.ser[m].data)
    (hclk : x.clk = s.ser[m].clk) :
    (s.setSer m x).ser[i].data = s.ser[i].data ∧ (s.setSer m x).ser[i].clk = s.ser[i].clk := by
  rw [State.setSer_get]
  split
  next h =>
    subst h
    exact ⟨hdata, hclk⟩
  next => exact ⟨rfl, rfl⟩

theorem completeWord_endsEvent (m : Fin 2) (s : State) : s.endsEvent (completeWord m s) := by
  unfold completeWord
  split
  next =>
    split
    next => exact .inl ⟨rfl, rfl, fun i => setSer_outs i rfl rfl⟩
    next => exact endsEvent_refl s
  next => exact endsEvent_refl s

/-! ### WRITE_TABLE -/

/-- What the writing of entries makes of the outputs: of what is held back, nothing but the output of a cadence that a
rewrite ends; with the last event the tick settles. No write brings an event of the tick. -/
structure State.rewrites (s t : State) : Prop where
  quiet : s.view = none → t.view = none ∧ s.outsKept t ∧ (s.eventReached = false → t.eventReached = false)
  held : ∀ v, s.view = some v →
    ∃ w : TickView, w = { v with active := w.active } ∧
      (∀ n : Fin 8, w.active[n] = v.active[n] ∨ (w.active[n] = false ∧ t.cad[n].pulse = none)) ∧
      ((t.view = some w ∧ s.outsKept t) ∨ State.showing w t)
  pulses : ∀ n : Fin 8, s.cad[n].pulse = none → t.cad[n].pulse = none

theorem rewrites_of_tickKept {s t : State} (h : s.tickKept t) (hcad : t.cad = s.cad) : s.rewrites t := by
  obtain ⟨hview, hk, he⟩ := h
  exact ⟨fun hv => ⟨hview.trans hv, hk, fun hf => he.trans hf⟩,
    fun v hv => ⟨v, rfl, fun _ => .inl rfl, .inl ⟨hview.trans hv, hk⟩⟩, fun n hn => by rw [hcad]; exact hn⟩

theorem State.rewrites.trans {s t u : State} (h : s.rewrites t) (k : t.rewrites u) : s.rewrites u where
  quiet hv := by
    obtain ⟨htv, hst, hse⟩ := h.quiet hv
    obtain ⟨huv, htu, hte⟩ := k.quiet htv
    exact ⟨huv, hst.trans htu, fun hf => hte (hse hf)⟩
  held v hv := by
    obtain ⟨w, hw, hactive, ⟨htv, hst⟩ | hshow⟩ := h.held v hv
    · obtain ⟨x, hx, hactive', hend⟩ := k.held w htv
      refine ⟨x, by rw [hx, hw], fun n => ?_, hend.imp (fun ⟨huv, htu⟩ => ⟨huv, hst.trans htu⟩) id⟩
      rcases hactive' n with hsame | hnone
      · rcases hactive n with hsame' | ⟨hfalse, hpulse⟩
        · exact .inl (hsame.trans hsame')
        · exact .inr ⟨hsame.trans hfalse, k.pulses n hpulse⟩
      · exact .inr hnone
    · obtain ⟨huv, htu, hte⟩ := k.quiet hshow.view
      refine ⟨w, hw, fun n => (hactive n).imp_right fun ⟨hfalse, hpulse⟩ => ⟨hfalse, k.pulses n hpulse⟩,
        .inr ⟨huv, hte hshow.quiet, fun i => ?_, fun m => ?_⟩⟩
      · rw [htu.pins]
        exact hshow.pins i
      · rw [(htu.outs m).1, (htu.outs m).2]
        exact hshow.outs m
  pulses n hn := k.pulses n (h.pulses n hn)

/-- The state that a record starts in holds no edge but the first one at or after the least time (R125). -/
theorem startState_held {r : CadRec} {traced : Bool} {least k e : Nat}
    (h : startState r traced least = .running k e ∨ startState r traced least = .armed k e) :
    e = r.edgeTime (r.firstAt least) := by
  unfold startState at h
  split at h
  · simp at h
  · simp at h
  · split at h
    · simp at h
    · obtain ⟨rfl, rfl⟩ : r.firstAt least = k ∧ r.edgeTime (r.firstAt least) = e := by simpa using h
      rfl

section
variable {k : Fin 4} {n : Fin 8} {r : CadRec} {s : State}

/-- The state in which a changed record of the active bank has restarted its cadence. -/
def rewritten (k : Fin 4) (n : Fin 8) (r : CadRec) (s : State) : State :=
  restartCad n r (laterThanNow s) (s.setCadRec k n r)

theorem rewritten_cad (m : Fin 8) :
    (rewritten k n r s).cad[m] = if m = n then s.cad[n].restarted r s.servo.traced (laterThanNow s) else s.cad[m] :=
  restartCad_cad n r (laterThanNow s) (s.setCadRec k n r) m

theorem rewritten_sameBut : s.sameBut [.banks, .cad] (rewritten k n r s) :=
  ((setBanks_evolves s _).same.mono (by decide)).trans ((restartCad_evolves _ _ _ _).same.mono (by decide))

theorem rewritten_cadRec {m : Fin 8} (hm : m ≠ n) : (rewritten k n r s).cadRec m = s.cadRec m :=
  (State.setCadRec_get s k n r s.active m).trans (if_neg fun h => hm h.2)

/-- A restart by the later-than form brings no event of the present tick (R125, R139). -/
theorem restarted_not_reached (hr : r.legal) (hpulse : (rewritten k n r s).cad[n].pulse = none)
    (hst : (rewritten k n r s).cad[n].st = startState r s.servo.traced (laterThanNow s)) :
    (rewritten k n r s).cadReached n = false := by
  obtain ⟨⟨hnum, -⟩, ⟨hden, -⟩, -⟩ := hr
  have htime : (rewritten k n r s).time = s.time := rewritten_sameBut .time (by decide)
  have hahead {k' e : Nat} (h : (rewritten k n r s).cad[n].st = .running k' e ∨ (rewritten k n r s).cad[n].st = .armed k' e) :
      ¬ e * 2 ^ 32 ≤ (rewritten k n r s).time.total := by
    rw [hst] at h
    have hfirst := (firstAt_le_iff hnum hden (laterThanNow s) _).mp (Nat.le_refl _)
    rw [← startState_held h, laterThanNow] at hfirst
    have hfrac := s.time.frac.isLt
    rw [htime, TimeVal.total]
    omega
  rw [Bool.eq_false_iff, ne_eq, cadReached_iff]
  rintro (⟨e, he, -⟩ | ⟨k', e, h, he, -⟩ | ⟨k', e, h, he, -⟩)
  · cases hpulse.symm.trans he
  · exact hahead (.inl h) he
  · exact hahead (.inr h) he

/-- No write of a record brings an event of the present tick. -/
theorem rewritten_not_reached (hr : r.legal) (h : s.eventReached = false) : (rewritten k n r s).eventReached = false := by
  obtain ⟨hcads, hswitch⟩ := not_eventReached_iff.mp h
  have htime : (rewritten k n r s).time = s.time := rewritten_sameBut .time (by decide)
  have hservo : (rewritten k n r s).servo = s.servo := rewritten_sameBut .servo (by decide)
  have hself := (rewritten_cad (k := k) (n := n) (r := r) (s := s) n).trans (if_pos rfl)
  refine not_eventReached_iff.mpr ⟨fun m => ?_, fun q hq => ?_⟩
  · by_cases hm : m = n
    · subst hm
      exact restarted_not_reached hr (congrArg CadRun.pulse hself) (congrArg CadRun.st hself)
    · rw [← hcads m]
      simp only [State.cadReached, heldBack, State.wouldMiss, rewritten_cad, if_neg hm, rewritten_cadRec hm, hservo,
        atOrPast_congr htime]
  · have hsame : (rewritten k n r s).switch = s.switch := rewritten_sameBut .switch (by decide)
    rw [isReached_congr htime]
    exact hswitch q (hsame ▸ hq)

theorem setCadRec_labels (k : Fin 4) (n : Fin 8) (r : CadRec) (s : State) (j : Fin 4) :
    (s.setCadRec k n r).banks[j].labels = s.banks[j].labels := by
  rw [show (s.setCadRec k n r).banks[j] = if j = k then { s.banks[k] with cad := s.banks[k].cad.set n r } else s.banks[j] from
    vector_set_get _ _ _ _]
  split
  next h => rw [h]
  next => rfl

theorem rewritten_label (m : Fin 2) : (rewritten k n r s).label m = s.label m :=
  congrArg (fun l : Vector LabelCfg 2 => l[m]) (setCadRec_labels k n r s s.active)

/-- What a changed record of the active bank leaves held back: all but the output that it ends. -/
theorem rewritten_follow (v : TickView) :
    v.follow s (rewritten k n r s) = { v with active := (v.follow s (rewritten k n r s)).active } ∧
      ∀ m : Fin 8, (v.follow s (rewritten k n r s)).active[m] = v.active[m] ∨
        ((v.follow s (rewritten k n r s)).active[m] = false ∧ (rewritten k n r s).cad[m].pulse = none) := by
  obtain ⟨hlines, hactive, hser⟩ :=
    follow_of_switch_eq s (rewritten k n r s) v (rewritten_sameBut .switch (by decide))
  obtain ⟨hlocked, htraced, hbackup⟩ := follow_flags s (rewritten k n r s) v
  have hword : (rewritten k n r s).ser = s.ser := rewritten_sameBut .ser (by decide)
  refine ⟨TickView.eq_of_fields rfl (Vector.ext fun i hi => ?_) hlines hlocked htraced hbackup, fun m => ?_⟩
  · have hkept := hser ⟨i, hi⟩
    rw [TickView.serAfter, if_pos ⟨by rw [hword], rewritten_label _⟩] at hkept
    exact hkept
  · rw [hactive, TickView.cadAfter]
    split
    next => exact .inl rfl
    next hne =>
      have hm : m = n := by
        by_contra hm
        exact hne ((rewritten_cad m).trans (if_neg hm))
      have hpulse : (rewritten k n r s).cad[m].pulse = none := by
        rw [rewritten_cad, if_pos hm]
        rfl
      exact .inr ⟨by rw [State.isLive, hpulse]; rfl, hpulse⟩

theorem storeCad_rewrites (hr : r.legal) : s.rewrites (storeCad k n r s) := by
  by_cases hk : k ≠ s.active ∨ s.banks[k].cad[n] = r
  · rw [storeCad_of_kept hk]
    have hrec (m : Fin 8) : (s.setCadRec k n r).cadRec m = s.cadRec m := by
      refine (State.setCadRec_get s k n r s.active m).trans ?_
      split
      next h =>
        obtain ⟨rfl, rfl⟩ := h
        exact (hk.resolve_left (not_not.mpr rfl)).symm
      next => rfl
    exact rewrites_of_tickKept ⟨rfl, outsKept_of_ser rfl rfl, eventReached_congr rfl rfl (fun m => by rw [hrec]) rfl rfl⟩ rfl
  · rw [storeCad_of_changed (not_not.mp fun h => hk (.inl h)) fun h => hk (.inr h)]
    change s.rewrites (endEvent s (rewritten k n r s))
    have hview : (rewritten k n r s).view = s.view := rewritten_sameBut .view (by decide)
    have houts : s.outsKept (rewritten k n r s) := outsKept_of_sameBut rewritten_sameBut (by decide)
    have hcad : (endEvent s (rewritten k n r s)).cad = (rewritten k n r s).cad :=
      (endEvent_evolves s _).same .cad (by decide)
    refine ⟨fun hv => ?_, fun v hv => ?_, fun m hm => ?_⟩
    · obtain ⟨hnone, hkept⟩ := (endEvent_outs hview houts).1 hv
      refine ⟨hnone, hkept, fun he => (endEvent_eventReached _ _).trans (rewritten_not_reached hr he)⟩
    · obtain ⟨hw, hactive⟩ := rewritten_follow (k := k) (n := n) (r := r) (s := s) v
      exact ⟨_, hw, fun m => by rw [hcad]; exact hactive m, endEvent_of_held hview houts hv⟩
    · rw [hcad, rewritten_cad]
      split
      next => rfl
      next => exact hm

end

/-- Records of the banks replaced, those of the cadences as they were. -/
theorem rewrites_of_records {F : List Field} {s t : State} (h : s.sameBut F t) (hk : s.outsKept t)
    (hrec : ∀ j : Fin 4, t.banks[j].cad = s.banks[j].cad)
    (hF : ∀ f ∈ [Field.view, .cad, .time, .servo, .active, .switch], f ∉ F) : s.rewrites t := by
  have hactive : t.active = s.active := h .active (hF _ (by decide))
  have hservo : t.servo = s.servo := h .servo (hF _ (by decide))
  have hcad : t.cad = s.cad := h .cad (hF _ (by decide))
  exact rewrites_of_tickKept ⟨h .view (hF _ (by decide)), hk, eventReached_congr hcad (h .time (hF _ (by decide)))
    (fun n => by simp only [State.cadRec, State.bank, hactive, hrec]) (by rw [hservo]) (h .switch (hF _ (by decide)))⟩ hcad

theorem storeLabel_outs (k : Fin 4) (m : Fin 2) (c : LabelCfg) (s : State) : s.outsKept (storeLabel k m c s) := by
  by_cases h : k ≠ s.active ∨ s.banks[k].labels[m] = c
  · rw [storeLabel_of_kept h]
    exact outsKept_of_ser rfl rfl
  · rw [storeLabel_of_changed (not_not.mp fun hk => h (.inl hk)) fun hc => h (.inr hc)]
    obtain ⟨hdata, hclk⟩ := abandon_outs s.banks[k].labels[m] s.ser[m]
    exact ⟨rfl, fun i => setSer_outs (s := s.setLabel k m c) i hdata hclk⟩

theorem applyServo_rewrites (cfg : ServoCfg) (s : State) : s.rewrites (applyServo cfg s) := by
  have h := (applyServo_evolves cfg s).same
  have hcad : (applyServo cfg s).cad = s.cad := h .cad (by decide)
  refine rewrites_of_tickKept ⟨h .view (by decide), outsKept_of_sameBut h (by decide), ?_⟩ hcad
  exact eventReached_congr hcad (h .time (by decide))
    (fun n => by rw [cadRec_congr (h .banks (by decide)) (h .active (by decide))]) (applyServo_traced cfg s)
    (h .switch (by decide))

theorem rewrites_of_sameBut {F : List Field} {s t : State} (h : s.sameBut F t)
    (hF : ∀ f ∈ Field.servo :: .pins :: .ser :: viewFields, f ∉ F) : s.rewrites t :=
  rewrites_of_tickKept (tickKept_of_sameBut h hF) (h .cad (hF _ (by decide)))

theorem writeEntry_rewrites {t : TableId} {i : Nat} {b : List Byte} {s u : State} {c : Bool}
    (h : writeEntry t i b s = .applied c u) : s.rewrites u := by
  obtain ⟨n, e, -, rfl⟩ | ⟨-, -, -, rfl⟩ | ⟨cfg, -, rfl⟩ | rfl | ⟨k, n, r, -, hr, rfl⟩ | ⟨k, n, r, -, rfl⟩ |
    ⟨k, m, r, -, rfl⟩ | ⟨n, r, -, rfl⟩ | ⟨g, r, -, rfl⟩ | ⟨n, rfl⟩ := writeEntry_applied h
  · exact rewrites_of_sameBut (F := [.classify]) (fun f hf => by cases f <;> simp at hf <;> rfl) (by decide)
  · exact rewrites_of_sameBut (s.setPort_sameBut _ _) (by decide)
  · exact applyServo_rewrites cfg s
  · exact rewrites_of_sameBut (F := [.civil]) (fun f hf => by cases f <;> simp at hf <;> rfl) (by decide)
  · exact storeCad_rewrites (decodeCad_legal hr)
  · exact rewrites_of_records (setBanks_evolves s _).same (outsKept_of_ser rfl rfl) (setRoute_cad s k n r) (by decide)
  · exact rewrites_of_records (storeLabel_evolves k m r s).same (storeLabel_outs k m r s) (storeLabel_cad k m r s) (by decide)
  · exact rewrites_of_sameBut (F := [.capRec, .cap]) (fun f hf => by cases f <;> simp at hf <;> rfl) (by decide)
  · exact rewrites_of_sameBut (F := [.notifyCfg]) (fun f hf => by cases f <;> simp at hf <;> rfl) (by decide)
  · exact rewrites_of_sameBut (F := [.managers]) (fun f hf => by cases f <;> simp at hf <;> rfl) (by decide)

theorem serve_writeTable_rewrites (s : State) : s.rewrites (serve .writeTable writeTableCore s) :=
  serve_keeps (P := s.rewrites)
    (fun u _ rest _ hu => hu.trans (rewrites_of_sameBut (setRequests_evolves u rest).same (by decide)))
    (fun _ _ h hs => hs.trans (rewrites_of_sameBut h.same (by decide)))
    (fun b _ hu => writeTableCore_keeps (P := s.rewrites) (fun hs h => hs.trans (writeEntry_rewrites h)) b hu)
    (rewrites_of_sameBut (.refl s []) (by decide))

/-! ### The obligation -/

theorem changes_not_pending (c : Instr) : Field.pending ∉ c.changes ∧ Field.station ∉ c.changes := by
  cases c <;> simp [Instr.changes]

theorem outputs_of_settles {s t : State} (h : s.settles t) :
    (s.view = none → t.view = none ∧ s.outsKept t) ∧ (t.view ≠ none → s.outsKept t) ∧
      ∀ v, s.view = some v → (t.view = some v ∧ s.outsKept t) ∨ State.showing v t := by
  obtain ⟨hview, hk⟩ | ⟨w, hw, hshow⟩ := h
  · exact ⟨fun hv => ⟨hview.trans hv, hk⟩, fun _ => hk, fun v hv => .inl ⟨hview.trans hv, hk⟩⟩
  · refine ⟨fun hv => ?_, fun hne => (hne hshow.view).elim, fun v hv => .inr ?_⟩
    · cases hv.symm.trans hw
    · obtain rfl := Option.some.inj (hv.symm.trans hw)
      exact hshow

theorem outputs_of_endsEvent {s t : State} (h : s.endsEvent t) :
    (s.view = none → t.view = none ∧ s.outsKept t) ∧ (t.view ≠ none → s.outsKept t) := by
  obtain ⟨hview, hk⟩ | ⟨u, hview, hk, rfl⟩ := h
  · exact ⟨fun hv => ⟨hview.trans hv, hk⟩, fun _ => hk⟩
  · exact endEvent_outs hview hk

theorem outputs_of_rewrites {s t : State} (h : s.rewrites t) :
    (s.view = none → t.view = none ∧ s.outsKept t) ∧ (t.view ≠ none → s.outsKept t) := by
  refine ⟨fun hv => ⟨(h.quiet hv).1, (h.quiet hv).2.1⟩, fun hne => ?_⟩
  cases hv : s.view with
  | none => exact (h.quiet hv).2.1
  | some v =>
    obtain ⟨w, -, -, ⟨-, hk⟩ | hshow⟩ := h.held v hv
    · exact hk
    · exact (hne hshow.view).elim

/-- The events among the commands that act in a tick. -/
theorem after_endsEvent {c : Instr} (hact : actsInTick c = true) (hswitch : c ≠ .switchBank) (s : State) :
    s.endsEvent (c.after s) := by
  cases c with
  | cadenceEdge n => exact cadenceEdge_endsEvent n s
  | pulseEnd n => exact pulseEnd_endsEvent n s
  | oneshotFire n => exact oneshotFire_endsEvent n s
  | atTimeReached => exact atTimeReached_endsEvent s
  | labelWordComplete m => exact completeWord_endsEvent m s
  | switchBank => exact (hswitch rfl).elim
  | _ => cases hact

/-- Settles O2: the fields that no command changes, then the outputs by the three kinds of command. -/
theorem commandsKeepQueueStationAndPins : Obligations.CommandsKeepQueueStationAndPins := by
  intro c s t h
  obtain rfl := after_eq_of_exec h
  obtain ⟨hpending, hstation⟩ := changes_not_pending c
  refine ⟨after_sameBut c s .pending hpending, after_sameBut c s .station hstation, fun htick hstep hloss hcold => ?_⟩
  intro still
  have hstill : s.outsKept (c.after s) → still := fun hk => ⟨hk.pins, hk.outs⟩
  by_cases hwrite : c = .writeTable
  · subst hwrite
    have hrewrites : s.rewrites (Instr.writeTable.after s) := serve_writeTable_rewrites s
    obtain ⟨hnone, hne⟩ := outputs_of_rewrites hrewrites
    refine ⟨fun hv => (hnone hv).imp_right hstill, fun hv => hstill (hne hv), fun v hv _ => ?_⟩
    obtain ⟨w, hw, hactive, hend⟩ := hrewrites.held v hv
    exact ⟨w, fun hno => (hno rfl).elim, hw, hactive, hend.imp (fun hheld => hheld.imp_right hstill) fun hshow =>
      ⟨hshow.view, hshow.quiet, hshow.pins, hshow.outs⟩⟩
  · by_cases hevent : actsInTick c = true ∧ c ≠ .switchBank
    · obtain ⟨hnone, hne⟩ := outputs_of_endsEvent (after_endsEvent hevent.1 hevent.2 s)
      refine ⟨fun hv => (hnone hv).imp_right hstill, fun hv => hstill (hne hv), fun v _ hno => ?_⟩
      exact (hno.elim (fun hf => Bool.false_ne_true (hf.symm.trans hevent.1)) hevent.2).elim
    · have hquiet : actsInTick c = false ∨ c = .switchBank := by
        by_contra hboth
        rw [not_or, Bool.not_eq_false] at hboth
        exact hevent hboth
      obtain ⟨hnone, hne, hheld⟩ := outputs_of_settles (after_settles (s := s) hquiet htick hstep hloss hcold hwrite)
      refine ⟨fun hv => (hnone hv).imp_right hstill, fun hv => hstill (hne hv), fun v hv _ => ?_⟩
      exact ⟨v, fun _ => rfl, rfl, fun n => .inl rfl, (hheld v hv).imp (fun hk => hk.imp_right hstill) fun hshow =>
        ⟨hshow.view, hshow.quiet, hshow.pins, hshow.outs⟩⟩

end Sys2Proof.Machine
end

section
/-!
PROOFS. The outputs of a tick stand as they are after the events that the tick reaches (R159, R156, R173).
-/

namespace Sys2Proof.Machine

/-! ### What is held back within a tick -/

/-- The outputs within a tick: while an event is left, what is held back is what the state gives; with none left the
state's outputs are shown (R159). -/
structure State.inTick (s : State) : Prop where
  held : ∀ v, s.view = some v → v = s.viewNow ∧ s.eventReached = true
  quiet : s.view = none → s.eventReached = false ∧ s.showsNow

theorem State.inTick.view_none {s : State} (h : s.inTick) (he : s.eventReached = false) : s.view = none := by
  cases hv : s.view with
  | none => rfl
  | some v => exact (Bool.false_ne_true (he.symm.trans (h.held v hv).2)).elim

theorem State.inTick.view_iff {s : State} (h : s.inTick) : s.view = none ↔ s.eventReached = false :=
  ⟨fun hv => (h.quiet hv).1, h.view_none⟩

theorem State.inTick.congr {s t : State} (h : s.inTick) (hview : t.view = s.view) (hnow : t.viewNow = s.viewNow)
    (he : t.eventReached = s.eventReached) (hshow : s.showsNow → t.showsNow) : t.inTick where
  held v hv := by
    rw [hnow, he]
    exact h.held v (hview.symm.trans hv)
  quiet hv := by
    rw [he]
    exact (h.quiet (hview.symm.trans hv)).imp_right hshow

/-- The fields that the outputs of a tick go by. -/
abbrev tickFields : List Field := [.servo, .clock, .pins, .ser, .view, .cad, .time, .banks, .active, .switch]

theorem viewNow_of_sameBut {F : List Field} {s t : State} (h : s.sameBut F t)
    (hF : ∀ f ∈ [Field.servo, .clock, .ser, .cad, .time, .banks, .active], f ∉ F) : t.viewNow = s.viewNow := by
  have hser : t.ser = s.ser := h .ser (hF _ (by decide))
  have hbanks : t.banks = s.banks := h .banks (hF _ (by decide))
  have hactive : t.active = s.active := h .active (hF _ (by decide))
  have hservo : t.servo = s.servo := h .servo (hF _ (by decide))
  refine viewNow_congr (isLive_congr (h .cad (hF _ (by decide))) (h .time (hF _ (by decide)))) (fun m => ?_) ?_ (by rw [hservo])
    (by rw [hservo]) (h .clock (hF _ (by decide)))
  · rw [State.serOutputs, State.serOutputs, hser, label_congr hbanks hactive]
  · simp only [State.bank, hbanks, hactive]

theorem showsNow_of_sameBut {F : List Field} {s t : State} (h : s.sameBut F t)
    (hF : ∀ f ∈ [Field.servo, .clock, .pins, .ser, .cad, .banks, .active], f ∉ F) (hs : s.showsNow) : t.showsNow := by
  have hser : t.ser = s.ser := h .ser (hF _ (by decide))
  have hcad : t.cad = s.cad := h .cad (hF _ (by decide))
  have hbanks : t.banks = s.banks := h .banks (hF _ (by decide))
  have hactive : t.active = s.active := h .active (hF _ (by decide))
  have hservo : t.servo = s.servo := h .servo (hF _ (by decide))
  refine hs.congr (h .pins (hF _ (by decide))) ?_ (fun n => by rw [hcad]) (fun m => by rw [hser]; exact ⟨rfl, rfl⟩)
    (fun m => by rw [hser, label_congr hbanks hactive]) (by rw [hservo]) (by rw [hservo]) (h .clock (hF _ (by decide)))
  simp only [State.bank, hbanks, hactive]

theorem inTick_of_sameBut {F : List Field} {s t : State} (h : s.sameBut F t) (hF : ∀ f ∈ tickFields, f ∉ F)
    (hs : s.inTick) : t.inTick :=
  hs.congr (h .view (hF _ (by decide)))
    (viewNow_of_sameBut h fun f hf => hF f ((by decide : [Field.servo, .clock, .ser, .cad, .time, .banks, .active] ⊆ tickFields) hf))
    (tickKept_of_sameBut h fun f hf => hF f ((by decide : Field.servo :: .pins :: .ser :: viewFields ⊆ tickFields) hf)).2.2
    (showsNow_of_sameBut h fun f hf =>
      hF f ((by decide : [Field.servo, .clock, .pins, .ser, .cad, .banks, .active] ⊆ tickFields) hf))

theorem setView_viewNow (s : State) (x : Option TickView) : ({ s with view := x } : State).viewNow = s.viewNow :=
  viewNow_congr (fun _ => rfl) (fun _ => rfl) rfl rfl rfl rfl

/-- A tick that holds back what its state gives, settled if it can. -/
theorem settleTick_inTick {s : State} (h : s.view = some s.viewNow) : (settleTick s).inTick := by
  obtain ⟨hv, -⟩ | ⟨v, hv, he, hs⟩ | ⟨v, hv, he, hs⟩ := settleTick_cases s
  · cases hv.symm.trans h
  · rw [hs]
    refine ⟨fun w hw => ⟨Option.some.inj (hw.symm.trans h), he⟩, fun hnone => ?_⟩
    cases hnone.symm.trans h
  · obtain rfl : v = s.viewNow := Option.some.inj (hv.symm.trans h)
    have hquiet : (settleTick s).eventReached = false := (settleTick_eventReached s).trans he
    rw [hs] at hquiet ⊢
    exact ⟨fun w hw => (nomatch hw), fun _ => ⟨hquiet, showOutputs_showsNow he⟩⟩

theorem tickEnd_inTick (inp : TickIn) (w : State) : (tickEnd inp w).inTick := settleTick_inTick (tickHeld_view _)

/-! ### The events of a tick -/

/-- What an event of a tick leads to, before the outputs are brought up to date. -/
structure State.tookEvent (s x : State) : Prop where
  reached : s.eventReached = true
  same : s.sameBut [.cad, .ser, .active, .switch] x
  outs : s.outsKept x
  active : x.switch = s.switch → x.active = s.active

/-- A command changes nothing, or takes an event of the tick. -/
def State.mayTake (s t : State) : Prop := t = s ∨ ∃ x, s.tookEvent x ∧ t = endEvent s x

theorem tellSwitch_active (n : Fin 8) (t before : Nat) (s : State) (h : (tellSwitch n t before s).switch = s.switch) :
    (tellSwitch n t before s).active = s.active := by
  obtain hs | ⟨q, hq, -, hs⟩ := tellSwitch_cases n t before s
  · rw [hs]
  · rw [hs, makeSwitch_switch] at h
    cases h.trans hq

/-- An edge, a firing or a miss, told to the switch. -/
theorem tookEvent_of_told {s u : State} {n : Fin 8} (e before : Nat) (hreached : s.cadReached n = true)
    (h : s.sameBut [.cad, .ser] u) (hk : s.outsKept u) : s.tookEvent (tellSwitch n e before u) where
  reached := eventReached_iff.mpr (.inl ⟨n, hreached⟩)
  same := (h.mono (by decide)).trans ((tellSwitch_evolves n e before u).same.mono (by decide))
  outs := hk.trans (tellSwitch_outs _ _ _ _)
  active hswitch := by
    have hu : u.switch = s.switch := h .switch (by decide)
    exact (tellSwitch_active n e before u (hswitch.trans hu.symm)).trans (h .active (by decide))

theorem cadenceEdge_mayTake (n : Fin 8) (s : State) : s.mayTake (cadenceEdge n s) := by
  unfold cadenceEdge
  dsimp only
  split
  next k e hst =>
    split
    next h =>
      obtain ⟨hpast, hpulse, hended⟩ := h
      exact .inr ⟨_, tookEvent_of_told _ _
        (cadReached_iff.mpr (.inr (.inl ⟨k, e, hst, atOrPast_iff.mp hpast, hpulse, hended⟩)))
        ((produceEdge_evolves _ _ _ _ s).same.mono (by decide)) (produceEdge_outs _ _ _ _ s), rfl⟩
    next => exact .inl rfl
  next => exact .inl rfl

theorem pulseEnd_mayTake (n : Fin 8) (s : State) : s.mayTake (pulseEnd n s) := by
  unfold pulseEnd
  split
  next e he =>
    split
    next hpast =>
      refine .inr ⟨_, ⟨?_, (s.setCad_evolves n _).same.mono (by decide), outsKept_of_ser rfl rfl, fun _ => rfl⟩, rfl⟩
      exact eventReached_iff.mpr (.inl ⟨n, cadReached_iff.mpr (.inl ⟨e, he, atOrPast_iff.mp hpast⟩)⟩)
    next => exact .inl rfl
  next => exact .inl rfl

theorem oneshotFire_mayTake (n : Fin 8) (s : State) : s.mayTake (oneshotFire n s) := by
  unfold oneshotFire
  dsimp only
  split
  next k e hst =>
    split
    next => exact .inl rfl
    next hpast =>
      have hat : e * 2 ^ 32 ≤ s.time.total := atOrPast_iff.mp (Bool.not_eq_false _ ▸ hpast)
      split
      next hmiss =>
        have hmissed (x : CadRun) : s.sameBut [.cad, .ser] (raise .oneshotMissed (s.setCad n x)) :=
          ((s.setCad_evolves n x).same.mono (by decide)).trans ((raise_evolves _ _).same.mono (by decide))
        exact .inr ⟨_, tookEvent_of_told _ _
          (cadReached_iff.mpr (.inr (.inr ⟨k, e, hst, hat, .inr (wouldMiss_iff.mp hmiss)⟩))) (hmissed _)
          (outsKept_of_ser (raise_pins _ _) (raise_ser _ _)), rfl⟩
      next =>
        split
        next => exact .inl rfl
        next hheld =>
          have hfired : s.sameBut [.cad, .ser] (raise .oneshotDone (produceEdge n k e .done s)) :=
            ((produceEdge_evolves _ _ _ _ s).same.mono (by decide)).trans ((raise_evolves _ _).same.mono (by decide))
          have hfire : s.mayFire n := mayFire_iff.mpr (Bool.not_eq_true _ ▸ hheld)
          exact .inr ⟨_, tookEvent_of_told _ _ (cadReached_iff.mpr (.inr (.inr ⟨k, e, hst, hat, .inl hfire⟩))) hfired
            ((produceEdge_outs _ _ _ _ s).trans (outsKept_of_ser (raise_pins _ _) (raise_ser _ _))), rfl⟩
  next => exact .inl rfl

theorem atTimeReached_mayTake (s : State) : s.mayTake (atTimeReached s) := by
  unfold atTimeReached
  split
  next q hq =>
    split
    next =>
      split
      next hreached =>
        refine .inr ⟨_, ⟨eventReached_iff.mpr (.inr ⟨q, hq, hreached⟩), (makeSwitch_evolves _ _ _ s).same,
          makeSwitch_outs _ _ _ s, fun hswitch => ?_⟩, rfl⟩
        rw [makeSwitch_switch] at hswitch
        cases hswitch.trans hq
      next => exact .inl rfl
    next => exact .inl rfl
  next => exact .inl rfl

section
variable {s x : State} (h : s.tookEvent x)
include h

theorem State.tookEvent.label (hswitch : x.switch = s.switch) (m : Fin 2) : x.label m = s.label m :=
  label_congr (h.same .banks (by decide)) (h.active hswitch) m

/-- What is held back keeps up with the state: the event brings in what it changed (R159), a switch all of it (R156). -/
theorem State.tookEvent.follow_viewNow : s.viewNow.follow s x = x.viewNow := by
  obtain ⟨hlocked, htraced, hbackup⟩ := follow_flags s x s.viewNow
  have htime : x.time = s.time := h.same .time (by decide)
  have hservo : x.servo = s.servo := h.same .servo (by decide)
  have hclock : x.clock = s.clock := h.same .clock (by decide)
  have hnow : s.viewNow.locked = x.viewNow.locked ∧ s.viewNow.traced = x.viewNow.traced ∧
      s.viewNow.backup = x.viewNow.backup := by
    refine ⟨congrArg Servo.locked hservo.symm, congrArg Servo.traced hservo.symm, ?_⟩
    exact congrArg (fun c : ClockState => decide (c ≠ .normal)) hclock.symm
  by_cases hswitch : x.switch = s.switch
  · obtain ⟨hlines, hactive, hser⟩ := follow_of_switch_eq s x s.viewNow hswitch
    have hbanks : x.banks = s.banks := h.same .banks (by decide)
    refine TickView.eq_of_fields (Vector.ext fun i hi => (hactive ⟨i, hi⟩).trans ?_)
      (Vector.ext fun i hi => (hser ⟨i, hi⟩).trans ?_) (hlines.trans ?_) (hlocked.trans hnow.1) (htraced.trans hnow.2.1)
      (hbackup.trans hnow.2.2)
    · refine Eq.trans ?_ (viewNow_active x ⟨i, hi⟩).symm
      rw [TickView.cadAfter]
      split
      next hcad => rw [viewNow_active, State.isLive, State.isLive, hcad, atOrPast_congr htime]
      next => rfl
    · refine Eq.trans ?_ (viewNow_ser x ⟨i, hi⟩).symm
      rw [TickView.serAfter]
      split
      next hkept =>
        rw [viewNow_ser, State.serOutputs, State.serOutputs, hkept.2]
        exact (Serializer.outputs_congr _ hkept.1).symm
      next => rfl
    · show s.bank.lines = x.bank.lines
      simp only [State.bank, hbanks, h.active hswitch]
  · obtain ⟨hlines, hactive, hser⟩ := follow_of_switch_ne s x s.viewNow hswitch
    exact TickView.eq_of_fields
      (Vector.ext fun i hi => (hactive ⟨i, hi⟩).trans (viewNow_active x ⟨i, hi⟩).symm)
      (Vector.ext fun i hi => (hser ⟨i, hi⟩).trans (viewNow_ser x ⟨i, hi⟩).symm) hlines (hlocked.trans hnow.1)
      (htraced.trans hnow.2.1) (hbackup.trans hnow.2.2)

theorem State.tookEvent.inTick (hs : s.inTick) : (endEvent s x).inTick := by
  have hview : x.view = s.view := h.same .view (by decide)
  cases hv : s.view with
  | none => exact (Bool.false_ne_true ((hs.quiet hv).1.symm.trans h.reached)).elim
  | some v =>
    refine settleTick_inTick ?_
    obtain ⟨rfl, -⟩ := hs.held v hv
    rw [setView_viewNow, ← h.follow_viewNow, hview, hv]
    rfl

end

theorem State.mayTake.inTick {s t : State} (h : s.mayTake t) (hs : s.inTick) : t.inTick := by
  obtain rfl | ⟨x, hx, rfl⟩ := h
  · exact hs
  · exact hx.inTick hs

/-! ### The other commands that act in a tick -/

/-- A word that is complete shows the idle levels, as no word does (R168). -/
theorem completeWord_outputs (m i : Fin 2) (s : State) :
    (completeWord m s).ser[i].outputs (s.label i) = s.ser[i].outputs (s.label i) := by
  unfold completeWord
  split
  next w hw =>
    split
    next hdone =>
      rw [State.setSer_get]
      split
      next hi =>
        subst hi
        by_cases hen : (s.label i).enable = false
        · rw [outputs_of_disabled hen, outputs_of_disabled hen]
        · have hon : (s.label i).enable = true := Bool.not_eq_false _ ▸ hen
          rw [outputs_of_word hon hw, if_pos (.inr hdone), outputs_of_no_word hon rfl]
      next => rfl
    next => rfl
  next => rfl

theorem completeWord_outs (m : Fin 2) (s : State) : s.outsKept (completeWord m s) := by
  unfold completeWord
  split
  next =>
    split
    next => exact ⟨rfl, fun i => setSer_outs i rfl rfl⟩
    next => exact .refl s
  next => exact .refl s

theorem completeWord_inTick (m : Fin 2) {s : State} (hs : s.inTick) : (completeWord m s).inTick := by
  have h := (completeWord_evolves m s).same
  have hbanks : (completeWord m s).banks = s.banks := h .banks (by decide)
  have hactive : (completeWord m s).active = s.active := h .active (by decide)
  have hservo : (completeWord m s).servo = s.servo := h .servo (by decide)
  have hcad : (completeWord m s).cad = s.cad := h .cad (by decide)
  have hlines : (completeWord m s).bank.lines = s.bank.lines := by simp only [State.bank, hbanks, hactive]
  have hword (i : Fin 2) :
      (completeWord m s).ser[i].outputs ((completeWord m s).label i) = s.ser[i].outputs (s.label i) := by
    rw [label_congr hbanks hactive]
    exact completeWord_outputs m i s
  refine hs.congr (h .view (by decide)) ?_ ?_ fun hshow => ?_
  · exact viewNow_congr (isLive_congr hcad (h .time (by decide))) hword hlines (by rw [hservo]) (by rw [hservo])
      (h .clock (by decide))
  · exact eventReached_congr hcad (h .time (by decide)) (fun n => by rw [cadRec_congr hbanks hactive]) (by rw [hservo])
      (h .switch (by decide))
  · exact hshow.congr (completeWord_outs m s).pins hlines (fun n => by rw [hcad]) (completeWord_outs m s).outs hword
      (by rw [hservo]) (by rw [hservo]) (h .clock (by decide))

theorem setSwitch_viewNow (s : State) (q : Option SwitchReq) : ({ s with switch := q } : State).viewNow = s.viewNow :=
  viewNow_of_sameBut (setSwitch_evolves s q).same (by decide)

theorem setSwitch_showsNow {s : State} (q : Option SwitchReq) (h : s.showsNow) : ({ s with switch := q } : State).showsNow :=
  showsNow_of_sameBut (setSwitch_evolves s q).same (by decide) h

theorem setSwitch_cadReached (s : State) (q : Option SwitchReq) : ({ s with switch := q } : State).cadReached = s.cadReached :=
  cadReached_congr rfl rfl (fun _ => rfl) rfl

/-- A request for a switch brings no event of the present tick: one that is due waits for its tick (R151). -/
theorem request_eventReached {s : State} {q : SwitchReq} (hnone : s.switch = none) (htick : q.dueTick = false)
    (hdue : ∀ sec ns, q.trigger = .atTime sec ns → q.due = s.atOrPast (triggerNs sec ns)) :
    ({ s with switch := some q } : State).eventReached = s.eventReached := by
  have hahead : q.isReached s = false := by
    rw [Bool.eq_false_iff, ne_eq, isReached_iff]
    rintro ⟨sec, ns, htr, ⟨-, ht⟩ | ⟨hnot, hpast⟩⟩
    · exact Bool.false_ne_true (htick.symm.trans ht)
    · exact Bool.false_ne_true (hnot.symm.trans ((hdue sec ns htr).trans (atOrPast_iff.mpr hpast)))
  have hsame : q.isReached { s with switch := some q } = false := (isReached_congr rfl q).trans hahead
  rw [State.eventReached, setSwitch_cadReached, State.eventReached, hnone]
  exact congrArg (allCad.any s.cadReached || ·) hsame

theorem cancel_eventReached {s : State} (h : s.eventReached = false) : ({ s with switch := none } : State).eventReached = false := by
  refine not_eventReached_iff.mpr ⟨fun n => ?_, fun q hq => by cases hq⟩
  rw [setSwitch_cadReached]
  exact (not_eventReached_iff.mp h).1 n

/-- A cancel leaves what is held back, and settles the tick when it takes its last event away (R149). -/
theorem cancel_inTick {s : State} (hs : s.inTick) : (settleTick { s with switch := none }).inTick := by
  obtain hv | ⟨v, hv⟩ := Option.eq_none_or_eq_some s.view
  · obtain ⟨hquiet, hshow⟩ := hs.quiet hv
    rw [settleTick_of_none { s with switch := none } hv]
    exact ⟨fun v hw => (nomatch hv.symm.trans hw), fun _ => ⟨cancel_eventReached hquiet, setSwitch_showsNow _ hshow⟩⟩
  · refine settleTick_inTick (s := { s with switch := none }) ?_
    rw [setSwitch_viewNow, ← (hs.held v hv).1]
    exact hv

theorem switchBankCore_inTick (b : List Byte) {s : State} (hs : s.inTick) : (switchBankCore b s).after.inTick := by
  obtain h | ⟨q, hnone, -, htick, hdue, h⟩ | h := switchBankCore_after b s
  · rw [h]
    exact hs
  · rw [h]
    exact hs.congr rfl (setSwitch_viewNow s _) (request_eventReached hnone htick hdue) (setSwitch_showsNow _)
  · rw [h]
    exact cancel_inTick hs

theorem switchBank_inTick {s : State} (hs : s.inTick) : (serve .switchBank switchBankCore s).inTick :=
  serve_keeps (fun u _ rest _ hu => inTick_of_sameBut (setRequests_evolves u rest).same (by decide) hu)
    (fun _ _ h hu => inTick_of_sameBut h.same (by decide) hu) (fun b _ hu => switchBankCore_inTick b hu) hs

theorem after_inTick {c : Instr} (hact : actsInTick c = true) {s : State} (hs : s.inTick) : (c.after s).inTick := by
  cases c with
  | cadenceEdge n => exact (cadenceEdge_mayTake n s).inTick hs
  | pulseEnd n => exact (pulseEnd_mayTake n s).inTick hs
  | oneshotFire n => exact (oneshotFire_mayTake n s).inTick hs
  | atTimeReached => exact (atTimeReached_mayTake s).inTick hs
  | labelWordComplete m => exact completeWord_inTick m hs
  | switchBank => exact switchBank_inTick hs
  | _ => cases hact

theorem carry_cons (s : State) (c : Instr) (cs : List Instr) : s.carry (c :: cs) = (c.after s).carry cs := by
  rw [State.carry, List.foldl_cons, exec_eq_after]
  rfl

theorem carry_inTick {cs : List Instr} (hact : ∀ x ∈ cs, actsInTick x = true) {s : State} (hs : s.inTick) :
    (s.carry cs).inTick := by
  induction cs generalizing s with
  | nil => exact hs
  | cons c cs ih =>
    rw [carry_cons]
    exact ih (fun x hx => hact x (List.mem_cons_of_mem _ hx)) (after_inTick (hact c List.mem_cons_self) hs)

/-! ### The outputs before the end of a tick -/

/-- Nothing that is shown or held back moves. -/
def State.shownKept (s t : State) : Prop := t.view = s.view ∧ s.outsKept t

theorem State.shownKept.trans {s t u : State} (h : s.shownKept t) (k : t.shownKept u) : s.shownKept u :=
  ⟨k.1.trans h.1, h.2.trans k.2⟩

theorem shownKept_of_sameBut {F : List Field} {s t : State} (h : s.sameBut F t)
    (hF : ∀ f ∈ [Field.view, .pins, .ser], f ∉ F) : s.shownKept t :=
  ⟨h .view (hF _ (by decide)), outsKept_of_sameBut h fun f hf => hF f (List.mem_cons_of_mem _ hf)⟩

theorem tickUnits_shown (inp : TickIn) (s : State) : s.shownKept (tickUnits inp s) := by
  refine ⟨(tickUnits_evolves inp s).same .view (by decide), (tickUnits_evolves inp s).same .pins (by decide), fun m => ?_⟩
  rw [tickUnits_ser]
  exact ⟨rfl, rfl⟩

theorem tickStart_shown (inp : TickIn) (s : State) : s.shownKept (tickStart inp s) := by
  refine ⟨(tickStart_evolves inp s).same .view (by decide), (tickStart_evolves inp s).same .pins (by decide), fun m => ?_⟩
  rw [tickStart_ser]
  exact ⟨rfl, rfl⟩

theorem reevaluateSwitch_shown (before s : State) : s.shownKept (reevaluateSwitch before s) := by
  refine ⟨(reevaluateSwitch_evolves before s).same .view (by decide), ?_⟩
  obtain h | ⟨q, at_, -, h⟩ := reevaluateSwitch_cases before s
  · rw [h]
    exact .refl s
  · rw [h]
    exact makeSwitch_outs _ _ _ s

theorem stepMarked_shown (s : State) : s.shownKept (stepMarked s) := by
  refine ⟨rfl, rfl, fun m => ?_⟩
  fin_cases m <;> exact ⟨rfl, rfl⟩

theorem makeStep_shown (t : TimeVal) (s : State) : s.shownKept (makeStep t s) := by
  rw [makeStep_eq]
  exact (((shownKept_of_sameBut (stepTold_evolves t s).same (by decide)).trans
    (shownKept_of_sameBut (stepCads_evolves _).same (by decide))).trans (stepMarked_shown _)).trans (reevaluateSwitch_shown _ _)

theorem takeStep_shown (r : StepReq) (s : State) : s.shownKept (takeStep r s) := by
  unfold takeStep
  split
  · exact makeStep_shown _ s
  · exact ⟨rfl, .refl s⟩

theorem takeSteps_shown (s : State) : s.shownKept (takeSteps s) := by
  have hfold (rs : List StepReq) (u : State) : u.shownKept (rs.foldl (fun t r => takeStep r t) u) := by
    induction rs generalizing u with
    | nil => exact ⟨rfl, .refl u⟩
    | cons r rs ih => exact (takeStep_shown r u).trans (ih _)
  exact State.shownKept.trans (t := { s with steps := [] }) ⟨rfl, outsKept_of_ser rfl rfl⟩ (hfold _ _)

theorem lossAdvance_shown (n : Nat) (inp : TickIn) (s : State) : s.shownKept (lossAdvance n inp s) := by
  have hcounters : s.sameBut [.clock, .time, .elapsed, .elapsedRem, .prevTime, .prevTime2, .cad]
      (tickCads (tickCounters (n * s.increment) { s with clock := .backup none })) :=
    (((setClock_evolves s _).same.mono (by decide)).trans ((tickCounters_evolves _ _).same.mono (by decide))).trans
      ((tickCads_evolves _).same.mono (by decide))
  exact ((shownKept_of_sameBut hcounters (by decide)).trans (tickUnits_shown inp _)).trans
    (shownKept_of_sameBut (setPrevTimes_evolves _ _ _).same (by decide))

theorem lossTold_shown (n : Nat) (inp : TickIn) (s : State) :
    s.shownKept (raise .clockLoss (servoClockLoss (lossCaughtUp n inp s))) := by
  have htold (u : State) : u.sameBut [.servo] (raise .clockLoss (servoClockLoss u)) :=
    ((servoClockLoss_evolves u).same.mono (by decide)).trans ((raise_evolves _ _).same.mono (by decide))
  exact (((lossAdvance_shown n inp s).trans (shownKept_of_sameBut (catchUpCads_evolves _).same (by decide))).trans
    (reevaluateSwitch_shown _ _)).trans (shownKept_of_sameBut (htold _) (by decide))

/-- Every tick, that of a step and that of a clock loss too, ends alike, from a state that shows what the state before
it shows. -/
theorem exec_shown {c : Instr} {inp : TickIn} {s : State}
    (h : c = .tick inp ∨ c = .stepTick inp ∧ s.steps ≠ [] ∨ ∃ n, c = .clockLoss n inp ∧ s.clock = .normal) :
    ∃ w, exec c s = .next (tickEnd inp w) ∧ s.shownKept w := by
  have htick : s.shownKept (takeSteps (tickStart inp s)) := (tickStart_shown inp s).trans (takeSteps_shown _)
  obtain rfl | ⟨rfl, hsteps⟩ | ⟨n, rfl, hclock⟩ := h
  · exact ⟨_, rfl, htick⟩
  · refine ⟨_, congrArg Host.Outcome.next (?_ : stepTick inp s = _), htick⟩
    rw [stepTick, if_neg hsteps, tickAll_eq]
  · exact ⟨_, congrArg Host.Outcome.next (clockLoss_of_normal n inp hclock), lossTold_shown n inp s⟩

theorem limitPulses_shown (s : State) : s.shownKept (limitPulses s) := ⟨rfl, outsKept_of_ser rfl rfl⟩

theorem closeTick_of_none {s : State} (h : s.view = none) : closeTick s = s := by
  simp only [closeTick, h]

theorem closeTick_of_held {s : State} {v : TickView} (h : s.view = some v) : closeTick s = showOutputs v s := by
  simp only [closeTick, h]

/-- A tick that reaches an event shows what the tick before held back, as far as its events were taken. -/
theorem tickEnd_of_reached {inp : TickIn} {w : State} (he : (tickEnd inp w).eventReached = true) :
    (w.view = none → w.outsKept (tickEnd inp w)) ∧
      ∀ v, w.view = some v →
        (∀ i : Fin 12, (tickEnd inp w).pins[i] = (v.lines[i]).level v) ∧
          ∀ m : Fin 2, ((tickEnd inp w).ser[m].data, (tickEnd inp w).ser[m].clk) = v.ser[m] := by
  have hegress : w.sameBut [.residence, .exch, .departing] (takeEgress (tickStamps inp w)) :=
    ((tickStamps_sameBut inp w).mono (by decide)).trans (takeEgress_sameBut _)
  obtain ⟨hview, houts⟩ := (shownKept_of_sameBut hegress (by decide)).trans (limitPulses_shown _)
  rw [tickEnd_eq] at he ⊢
  rw [tickOutputs_of_reached he]
  refine ⟨fun hv => ?_, fun v hv => ?_⟩
  · rw [tickHeld, closeTick_of_none (hview.trans hv)]
    exact ⟨houts.pins, houts.outs⟩
  · rw [tickHeld, closeTick_of_held (hview.trans hv)]
    exact ⟨showOutputs_pins v (limitPulses (takeEgress (tickStamps inp w))),
      showOutputs_outputs v (limitPulses (takeEgress (tickStamps inp w)))⟩

/-! ### The obligation -/

theorem tick_outputs {c : Instr} {inp : TickIn} {s : State}
    (h : c = .tick inp ∨ c = .stepTick inp ∧ s.steps ≠ [] ∨ ∃ n, c = .clockLoss n inp ∧ s.clock = .normal) :
    ∃ t : State, exec c s = .next t ∧ t.inTick ∧
      (t.eventReached = true →
        (s.view = none → s.outsKept t) ∧
          ∀ v, s.view = some v →
            (∀ i : Fin 12, t.pins[i] = (v.lines[i]).level v) ∧ ∀ m : Fin 2, (t.ser[m].data, t.ser[m].clk) = v.ser[m]) := by
  obtain ⟨w, hexec, hview, hk⟩ := exec_shown h
  refine ⟨_, hexec, tickEnd_inTick inp w, fun he => ?_⟩
  obtain ⟨hnone, hheld⟩ := tickEnd_of_reached he
  exact ⟨fun hv => hk.trans (hnone (hview.trans hv)), fun v hv => hheld v (hview.trans hv)⟩

/-- What settling a tick gives each serializer. -/
theorem settleTick_ser {s : State} {v : TickView} (hv : s.view = some v) (he : s.eventReached = false) (m : Fin 2) :
    (settleTick s).ser[m] = { s.ser[m] with data := v.ser[m].1, clk := v.ser[m].2 } := by
  have hshow : settleTick s = showOutputs v s := by
    simp only [settleTick, hv, he, Bool.false_eq_true, if_false]
  rw [hshow]
  fin_cases m <;> rfl

theorem settleTick_same {s : State} {v : TickView} (hv : s.view = some v) (he : s.eventReached = false) :
    settleTick s = { s with ser := (settleTick s).ser, pins := (settleTick s).pins, view := none } := by
  have hshow : settleTick s = showOutputs v s := by
    simp only [settleTick, hv, he, Bool.false_eq_true, if_false]
  obtain ⟨ser, pins, h⟩ := showOutputs_frame v s
  rw [hshow, h]

/-- A tick that has nothing held back, or an event to come, does not settle. -/
theorem settleTick_of_open {s : State} (h : s.view = none ∨ s.eventReached = true) : settleTick s = s := by
  obtain ⟨-, hs⟩ | ⟨_, -, -, hs⟩ | ⟨v, hv, he, -⟩ := settleTick_cases s
  · exact hs
  · exact hs
  · rcases h with hno | hreached
    · cases hno.symm.trans hv
    · exact (Bool.false_ne_true (he.symm.trans hreached)).elim

theorem isLive_iff {s : State} {n : Fin 8} : s.isLive n = true ↔ ∃ e ∈ s.cad[n].pulse, s.time.total < e * 2 ^ 32 := by
  rw [State.isLive, Option.any_eq_true]
  refine exists_congr fun e => and_congr_right fun _ => ?_
  rw [Bool.not_eq_true', not_atOrPast_iff]

/-- A switch that ends its tick: each pin shows its source as the incoming bank leaves it, under the flags of the tick
(R157, R173). -/
theorem switch_shown {s x : State} {v : TickView} (h : s.tookEvent x) (hv : s.view = some v) (hswitch : x.switch ≠ s.switch)
    (hnone : (endEvent s x).view = none) {u : State}
    (hu : u = { endEvent s x with
      servo := { (endEvent s x).servo with locked := v.locked, traced := v.traced }
      clock := if v.backup = true then .backup none else .normal }) :
    (∀ i : Fin 12, (endEvent s x).pins[i] = u.lineLevel i) ∧
      ∀ m : Fin 2, ((endEvent s x).ser[m].data, (endEvent s x).ser[m].clk) =
        (endEvent s x).ser[m].outputs ((endEvent s x).label m) := by
  obtain ⟨hview, -⟩ | hshow := endEvent_of_held (h.same .view (by decide)) h.outs hv
  · cases hnone.symm.trans hview
  obtain ⟨hlines, hactive, hser⟩ := follow_of_switch_ne s x v hswitch
  obtain ⟨hlocked, htraced, hbackup⟩ := follow_flags s x v
  have hend := (endEvent_evolves s x).same
  have hbanks : (endEvent s x).banks = x.banks := hend .banks (by decide)
  have hbank : (endEvent s x).active = x.active := hend .active (by decide)
  have hcad : (endEvent s x).cad = x.cad := hend .cad (by decide)
  have hquiet : x.eventReached = false := (endEvent_eventReached s x).symm.trans hshow.quiet
  refine ⟨fun i => (hshow.pins i).trans (level_eq_lineLevel ?_ (fun n => ?_) (fun m => ?_) ?_ ?_ ?_ i), fun m => ?_⟩
  · rw [hlines, hu]
    simp only [State.bank, hbanks, hbank]
  · rw [hactive, isLive_of_quiet hquiet, hu, ← hcad]
  · rw [hu]
    exact (hshow.outs m).symm
  · rw [hlocked, hu]
  · rw [htraced, hu]
  · rw [hbackup, hu]
    cases v.backup <;> rfl
  · rw [hshow.outs, hser, State.serOutputs, label_congr hbanks hbank]
    exact Serializer.outputs_congr _ (endEvent_word s x m).symm

/-- Settles O34: within a tick the outputs held back keep up with the state, from the end of the tick through its events
and the requests among them. -/
theorem pinsFollowTheEventsOfTheTick : Obligations.PinsFollowTheEventsOfTheTick := by
  refine ⟨fun c inp s h => ?_, fun s => ⟨?_, settleTick_of_open, fun v hv he => ?_⟩, fun s t v hv => ?_,
    fun s t v c hc hexec hv hswitch hmade hnone => ?_⟩
  · obtain ⟨t, hexec, htick, hout⟩ := tick_outputs h
    refine ⟨t, hexec, htick.view_iff, fun he => (hout he).imp_left fun hkept hv => ⟨(hkept hv).pins, (hkept hv).outs⟩,
      fun cs hact => ?_⟩
    intro u he
    have hu : u.inTick := carry_inTick hact htick
    obtain ⟨-, hshow⟩ := hu.quiet (hu.view_none he)
    exact ⟨hu.view_none he, hshow.outputs, hshow.pins⟩
  · simp only [eventReached_iff, cadReached_iff, isReached_iff]
  · have hshow := settleTick_showing hv he
    exact ⟨settleTick_same hv he, hshow.pins, settleTick_ser hv he⟩
  · refine ⟨v.follow s t, by rw [endEvent, hv]; rfl, (follow_flags s t v).1, (follow_flags s t v).2.1,
      (follow_flags s t v).2.2, fun hsame => ?_, fun hne => ?_⟩
    · obtain ⟨hlines, hactive, hser⟩ := follow_of_switch_eq s t v hsame
      refine ⟨hlines, fun n => ⟨fun h => ?_, fun h => ?_⟩, fun m => ⟨fun h => ?_, fun h => ?_⟩⟩
      · rw [hactive, TickView.cadAfter, if_pos h]
      · rw [hactive, TickView.cadAfter, if_neg h]
        exact isLive_iff
      · rw [hser, TickView.serAfter, if_pos h]
      · rw [hser, TickView.serAfter, if_neg h]
        rfl
    · obtain ⟨hlines, hactive, hser⟩ := follow_of_switch_ne s t v hne
      exact ⟨hlines, fun n => by rw [hactive]; exact isLive_iff, hser⟩
  · have htaken : s.mayTake t := by
      obtain rfl := after_eq_of_exec hexec
      obtain rfl | ⟨n, rfl | rfl⟩ := hc
      · exact atTimeReached_mayTake s
      · exact cadenceEdge_mayTake n s
      · exact oneshotFire_mayTake n s
    obtain rfl | ⟨x, hx, rfl⟩ := htaken
    · exact (hswitch hmade).elim
    · have hchanged : x.switch ≠ s.switch := fun hsame =>
        hswitch (hsame.symm.trans ((endEvent_switch s x).symm.trans hmade))
      exact switch_shown hx hv hchanged hnone rfl

end Sys2Proof.Machine
end
